-- ==== Sys2Proof/Word.lean ====
section
/-! DEFINITION. The bit-vector types of the SHA-256 digest core: bytes of the message memory, 32-bit words, and the
64-bit values of the message context (spec/00_scope.md R8, R10). -/

namespace Sys2Proof

/-- An 8-bit byte of the message memory (R51). -/
abbrev Byte := BitVec 8

/-- An unsigned 32-bit word (R10). -/
abbrev Word := BitVec 32

/-- An unsigned 64-bit value: a message address, a byte count, a bit length or a block count (R9, R27). -/
abbrev DWord := BitVec 64

end Sys2Proof
end

