-- ==== Sys2Proof/Syntax.lean ====
section
/-! DEFINITION. The commands of the core, one constructor for each row of spec/opcode_table.json (R82). No command has
an operand: every operand is an implicit register (R80, R83). -/

namespace Sys2Proof

/-- A command of R82. -/
inductive Instr where
  /-- `INIT` (R171). -/
  | init
  /-- `LOAD` (R172). -/
  | load
  /-- `FILL` (R156). -/
  | fill
  /-- `SCHED` (R113). -/
  | sched
  /-- `COMPRESS` (R138). -/
  | compress
  /-- `DIGEST` (R174). -/
  | digest
  /-- `CMP` (R176). -/
  | cmp
deriving DecidableEq, Repr

end Sys2Proof
end

