-- ==== Sys2Proof/WellFormed.lean ====
section
/-! DEFINITION. Well-formedness of commands and of command words (R80, R82, R85). -/

namespace Sys2Proof

/-- A command carries no register field, no immediate and no mode bit (R80), so every command is well-formed. -/
def Instr.wf : Instr → Bool
  | .init => true
  | .load => true
  | .fill => true
  | .sched => true
  | .compress => true
  | .digest => true
  | .cmp => true

/-- The field `OP`, bits 7:0 of a command word (R80). -/
def opField (v : Word) : BitVec 8 := v.extractLsb' 0 8

/-- The field `RSVD`, bits 31:8 of a command word (R80). -/
def rsvdField (v : Word) : BitVec 24 := v.extractLsb' 8 24

/-- A command word is legal when `RSVD` is zero and `OP` is one of `0x01` to `0x07` (R85 lists the others). -/
def commandWordWf (v : Word) : Bool :=
  rsvdField v == 0 && decide (0x01 ≤ (opField v).toNat) && decide ((opField v).toNat ≤ 0x07)

end Sys2Proof
end

