-- ==== Sys2Proof/Decode.lean ====
section
/-! DEFINITION. The decoder of R81, total on every 32-bit word, and the encoder of R82. -/

namespace Sys2Proof

/-- Why a word is no command (R85). -/
inductive DecodeError where
  /-- `v[31:8] ≠ 0`, the first check of R81. -/
  | reservedBitsSet
  /-- An opcode outside `0x01` to `0x07`, the second check of R81. -/
  | unknownOpcode
deriving DecidableEq, Repr

/-- R81 `IssueCommand`: the command that the word `v` stands for. -/
def decode (v : Word) : Except DecodeError Instr :=
  if rsvdField v ≠ 0 then .error .reservedBitsSet
  else
    match (opField v).toNat with
    | 0x01 => .ok .init
    | 0x02 => .ok .load
    | 0x03 => .ok .fill
    | 0x04 => .ok .sched
    | 0x05 => .ok .compress
    | 0x06 => .ok .digest
    | 0x07 => .ok .cmp
    | _ => .error .unknownOpcode

/-- The column "command word" of R82. -/
def encode : Instr → Word
  | .init => 0x00000001
  | .load => 0x00000002
  | .fill => 0x00000003
  | .sched => 0x00000004
  | .compress => 0x00000005
  | .digest => 0x00000006
  | .cmp => 0x00000007

/-- The command word whose bits are `w`, of which the opcode table gives the low `nbits`: every bit above is 0. -/
def tableWord (nbits w : Nat) : Word := BitVec.ofNat 32 (w % 2 ^ nbits)

/-- The command that the decoder reads from a row of the opcode table. A command is one 32-bit word (R86), so a row of
more than 32 bits is none. -/
def decodeTableWord (nbits w : Nat) : Option Instr :=
  if nbits ≤ 32 then
    match decode (tableWord nbits w) with
    | .ok i => some i
    | .error _ => none
  else none

end Sys2Proof
end

