-- ==== Sys2Proof/Config.lean ====
section
/-! DEFINITION. What the spec leaves open: the size of the message memory (R9, `P_MEM_BYTES`) and the one value the
rules do not state. Both are constants without a body, so that no proof can see them. -/

namespace Sys2Proof.Config

/-- DESIGN CHOICE (notes/assumptions/1.md). The address of the last byte of the message memory, `P_MEM_BYTES − 1`, of
the machine that comes out of reset. The 64-bit type admits exactly the values `1 ≤ P_MEM_BYTES ≤ 2^64` of R9. -/
opaque memLast : DWord

/-- DESIGN CHOICE (notes/assumptions/3.md). The free value that `CTX.CUR` takes when the exact sum `CUR + c` of R156 is
`2^64`, which no 64-bit register holds. Its argument is the counter `State.freeCount`. -/
opaque curPastTop : Nat → DWord

end Sys2Proof.Config
end

