-- ==== Sys2Proof/Machine/State.lean ====
section
/-! DEFINITION. The state of one core instance (R20), the message memory it reads (R50), and the host's side of the
interface: the accesses still to come and the results of the reads made (R87). -/

namespace Sys2Proof.Machine

/-- `PHASE` (R28). -/
inductive Phase where
  | uninit
  | initialized
  | updated
  | final
deriving DecidableEq, Repr

/-- `CAUSE` (R200); the codes 8 to 15 are never produced (R208). -/
inductive Cause where
  /-- Code 0: no fault since reset. -/
  | noFault
  /-- Code 1, `ILLEGAL_CMD` (R201). -/
  | illegalCmd
  /-- Code 2, `BAD_ACCESS` (R202). -/
  | badAccess
  /-- Code 3, `UNINIT_READ` (R203). -/
  | uninitRead
  /-- Code 4, `LENGTH` (R204). -/
  | length
  /-- Code 5, `RANGE` (R205). -/
  | range
  /-- Code 6, `OVERRUN` (R206). -/
  | overrun
  /-- Code 7, `FINALIZED` (R207). -/
  | finalized
deriving DecidableEq, Repr

/-- The message context `CTX` when it is not ⊥ (R27). -/
structure Ctx where
  /-- `CUR`: byte address of the next message byte. -/
  cur : DWord
  /-- `REM`: bytes not yet consumed. -/
  rem : DWord
  /-- `TBITS`: total message length in bits. -/
  tbits : DWord
  /-- `NBLK`: required block count. -/
  nblk : DWord
  /-- `BCNT`: blocks materialised since the last LOAD. -/
  bcnt : DWord
  /-- `LASTC`: bytes consumed by the last FILL. -/
  lastc : BitVec 7
deriving DecidableEq, Repr

/-- A host transaction on the register window (R87). -/
inductive Access where
  /-- `W <off> <data>`. -/
  | write (off : BitVec 12) (data : Word)
  /-- `R <off>`. -/
  | read (off : BitVec 12)
deriving DecidableEq, Repr

/-- What reaches an instance from outside, one event at a time (R69, R230). -/
inductive HostEvent where
  /-- A transaction on the register window (R87). -/
  | access (a : Access)
  /-- The reset input, between two host accesses (R230). -/
  | reset
  /-- The host writes one byte of the message memory (R50, R69). -/
  | poke (addr : DWord) (b : Byte)
deriving DecidableEq, Repr

/-- The outcome of one host read: a word, or no data (R64). -/
structure ReadResult where
  off : BitVec 12
  data : Option Word
deriving DecidableEq, Repr

/-- The message memory: the bytes that differ from what an unlisted address reads as, addresses strictly rising. -/
abbrev Memory := List Host.Cell

/-- The machine. `none` in a register is the spec's ⊥, "no value" (R21). The constants `K` and `IV` are not state
(R104): they stand in Machine/Constants.lean. -/
structure State where
  /-- `H[0..7]`, the hash state (R22). -/
  h : Vector (Option Word) 8
  /-- `M[0..15]`, the block (R23). -/
  m : Vector (Option Word) 16
  /-- `W[0..63]`, the message schedule (R24). -/
  w : Vector (Option Word) 64
  /-- `CV[0..7]`, the compare value (R25). -/
  cv : Vector (Option Word) 8
  /-- `MSG_BASE_LO` (R26). -/
  msgBaseLo : Option Word
  /-- `MSG_BASE_HI` (R26). -/
  msgBaseHi : Option Word
  /-- `MSG_LEN_LO` (R26). -/
  msgLenLo : Option Word
  /-- `MSG_LEN_HI` (R26). -/
  msgLenHi : Option Word
  /-- `CTX`, the message context (R27). -/
  ctx : Option Ctx
  /-- `PHASE` (R28). -/
  phase : Phase
  /-- `FAULT` (R31). -/
  fault : Bool
  /-- `CAUSE` (R31). -/
  cause : Cause
  /-- `FINFO` (R31). -/
  finfo : Word
  /-- `EQ` (R33). -/
  eqFlag : Bool
  /-- The message memory, outside the core (R50). -/
  mem : Memory
  /-- `P_MEM_BYTES − 1`: the parameter of R9 (notes/assumptions/1.md). No step changes it. -/
  memLast : DWord
  /-- The model's own (notes/assumptions/4.md): the host events still to come, the next one first (R69, R87). -/
  pending : List HostEvent
  /-- The model's own (notes/assumptions/4.md): what the host's reads returned, the oldest first (R64). -/
  results : List ReadResult
  /-- The model's own (notes/assumptions/3.md): how many free values have been taken. -/
  freeCount : Nat
deriving DecidableEq, Repr

/-- Why the MODEL stops. None of these is a fault of the core: a fault of R200 is recorded in `State.fault`, `cause`
and `finfo`, and the machine goes on to its next state (R210). -/
inductive Fault where
  /-- Raised by a host write to a message-memory address that does not exist (R50), and by FILL when its context would
  read such an address, which no run from reset reaches (R51). Safe. -/
  | noSuchAddress (addr : Nat)
  /-- Raised by Platform.step for an instance number the platform does not have (R220). Safe. -/
  | noSuchInstance (k : Nat)
deriving DecidableEq, Repr

/-- Why the model gives an instruction no meaning. -/
inductive Refusal where
  /-- Raised by an arm of exec whose instruction has no meaning yet; no arm raises it now. Safe. -/
  | notModelled (mnemonic : String)
deriving DecidableEq, Repr

/-- The machine right after reset (R38): every data, descriptor and context register holds ⊥, `PHASE` is `UNINIT`,
`FAULT`, `CAUSE`, `FINFO` and `EQ` are 0; the message memory lists nothing and no host event is pending. -/
def State.reset : State where
  h := Vector.replicate 8 none
  m := Vector.replicate 16 none
  w := Vector.replicate 64 none
  cv := Vector.replicate 8 none
  msgBaseLo := none
  msgBaseHi := none
  msgLenLo := none
  msgLenHi := none
  ctx := none
  phase := .uninit
  fault := false
  cause := .noFault
  finfo := 0
  eqFlag := false
  mem := []
  memLast := Config.memLast
  pending := []
  results := []
  freeCount := 0

end Sys2Proof.Machine
end

