-- ==== Sys2Proof/Machine/Ops.lean ====
section
/-! DEFINITION. The named operations every command is built from: word primitives (R12 to R14), loops (R18), the
message memory (R50, R51), the writes of registers, fault entry (R210) and the reset event (R230). -/

namespace Sys2Proof.Machine

/-! ### Word primitives -/

/-- `rotr(x, n)` of R14, used for `1 ≤ n ≤ 31` only. -/
def rotr (x : Word) (n : Nat) : Word := (x >>> n) ||| (x <<< (32 - n))

/-- `x >> n` of R14: a logical right shift. -/
def shr (x : Word) (n : Nat) : Word := x >>> n

/-- `x ^ y ^ z` of R13, the shape of every function of R110, R130 and R132. -/
def xor3 (x y z : Word) : Word := x ^^^ y ^^^ z

/-- Four bytes as one word, the byte at the lower address in the more significant place (R52). -/
def packWord (b0 b1 b2 b3 : Byte) : Word := b0 ++ b1 ++ b2 ++ b3

/-- Byte `j` of a word in message order: `j = 0` is bits 31:24 (R52, R54). -/
def wordByte (x : Word) (j : Nat) : Byte := x.extractLsb' (24 - 8 * j) 8

/-- Byte `j` of the big-endian 64-bit length field: `tbits[63 − 8·j : 56 − 8·j]` (R53, R151 step 5). -/
def lengthByte (tbits : DWord) (j : Nat) : Byte := tbits.extractLsb' (56 - 8 * j) 8

/-- `HI ‖ LO` (R26, R84). -/
def joinWords (hi lo : Word) : DWord := hi ++ lo

/-- Bits 31:0 of a 64-bit field (R60). -/
def lowWord (x : DWord) : Word := x.extractLsb' 0 32

/-- Bits 63:32 of a 64-bit field (R60). -/
def highWord (x : DWord) : Word := x.extractLsb' 32 32

/-- `for i in first .. first + n − 1`, upward (R18). -/
def forUp {σ : Type} (body : Nat → σ → σ) : Nat → Nat → σ → σ
  | 0, _, s => s
  | n + 1, i, s => forUp body n (i + 1) (body i s)

/-- Element `i` of a register file; the rules use no index outside it. -/
def wordAt {n : Nat} (v : Vector Word n) (i : Nat) : Word := v.getD i 0

/-! ### Registers that may hold ⊥ -/

/-- A function applied to every element of a register file. -/
def mapWords {α β : Type} {n : Nat} (f : α → β) (v : Vector α n) : Vector β n :=
  Vector.mk (Array.mk (v.toList.map f)) (by simp)

/-- The lowest index at which a register file holds ⊥ (R215). -/
def lowestBot {n : Nat} (v : Vector (Option Word) n) : Option Nat := v.toList.findIdx? Option.isNone

/-- The words of a register file; the commands take them only after `lowestBot` has found no ⊥. -/
def words {n : Nat} (v : Vector (Option Word) n) : Vector Word n := mapWords (fun x => x.getD 0) v

/-- A register file that holds the given words. -/
def written {n : Nat} (v : Vector Word n) : Vector (Option Word) n := mapWords some v

/-! ### Message memory -/

/-- What an address that the memory does not list reads as.
DESIGN CHOICE (notes/assumptions/2.md): 0; the spec gives the message memory no content. -/
def unlistedByte : Byte := 0

/-- `MemRead(addr, 1)` (R51). -/
def Memory.read : Memory → Nat → Byte
  | [], _ => unlistedByte
  | (k, c) :: rest, a => if k = a then c else Memory.read rest a

/-- A host write of one byte (R50); the canonical form is kept. -/
def Memory.write : Memory → Nat → Byte → Memory
  | [], a, b => if b = unlistedByte then [] else [(a, b)]
  | (k, c) :: rest, a, b =>
    if a < k then (if b = unlistedByte then (k, c) :: rest else (a, b) :: (k, c) :: rest)
    else if a = k then (if b = unlistedByte then rest else (a, b) :: rest)
    else (k, c) :: Memory.write rest a b

/-- The canonical form: addresses strictly rising, and no byte listed that an unlisted address would give. -/
abbrev Memory.wf (mem : Memory) : Prop :=
  (mem.map Prod.fst).Pairwise (· < ·) ∧ ∀ c ∈ mem, c.2 ≠ unlistedByte

/-- `P_MEM_BYTES` (R9). -/
def State.memBytes (s : State) : Nat := s.memLast.toNat + 1

/-! ### Writes of registers -/

/-- `H[0..7] <- v`. -/
def State.setH (v : Vector Word 8) (s : State) : State := { s with h := written v }

/-- `M[0..15] <- v`. -/
def State.setM (v : Vector Word 16) (s : State) : State := { s with m := written v }

/-- `W[0..63] <- v`. -/
def State.setW (v : Vector Word 64) (s : State) : State := { s with w := written v }

/-- `M[i] <- v`. -/
def State.setMWord (i : Fin 16) (v : Word) (s : State) : State := { s with m := s.m.set i.val (some v) i.isLt }

/-- `CV[j] <- v`. -/
def State.setCvWord (j : Fin 8) (v : Word) (s : State) : State := { s with cv := s.cv.set j.val (some v) j.isLt }

/-- `MSG_BASE_LO <- v`. -/
def State.setMsgBaseLo (v : Word) (s : State) : State := { s with msgBaseLo := some v }

/-- `MSG_BASE_HI <- v`. -/
def State.setMsgBaseHi (v : Word) (s : State) : State := { s with msgBaseHi := some v }

/-- `MSG_LEN_LO <- v`. -/
def State.setMsgLenLo (v : Word) (s : State) : State := { s with msgLenLo := some v }

/-- `MSG_LEN_HI <- v`. -/
def State.setMsgLenHi (v : Word) (s : State) : State := { s with msgLenHi := some v }

/-- `CTX <- c`. -/
def State.setCtx (c : Ctx) (s : State) : State := { s with ctx := some c }

/-- `PHASE <- p`. -/
def State.setPhase (p : Phase) (s : State) : State := { s with phase := p }

/-- `EQ <- b`. -/
def State.setEq (b : Bool) (s : State) : State := { s with eqFlag := b }

/-- The message memory after a host write (R50). -/
def State.setMem (mem : Memory) (s : State) : State := { s with mem := mem }

/-- The host events still to come. -/
def State.setPending (es : List HostEvent) (s : State) : State := { s with pending := es }

/-- The host has seen one more read result. -/
def State.addResult (r : ReadResult) (s : State) : State := { s with results := s.results ++ [r] }

/-- The number of free values taken so far. -/
def State.setFreeCount (n : Nat) (s : State) : State := { s with freeCount := n }

/-! ### Fault entry and reset -/

/-- `raise Fault(cause, info)` (R210): the first fault is recorded, and nothing else changes. Fault entry saves no
other state and goes to no handler (R211). -/
def State.raise (cause : Cause) (info : Word) (s : State) : State :=
  if s.fault then s else { s with fault := true, cause := cause, finfo := info }

/-- The reset event (R230), the only way out of a fault (R212). The message memory is left unchanged (R232), and so
are the host's own events and results. -/
def State.applyReset (s : State) : State :=
  { State.reset with
    mem := s.mem, memLast := s.memLast, pending := s.pending, results := s.results, freeCount := s.freeCount }

end Sys2Proof.Machine
end

