-- ==== Sys2Proof/Machine/Flags.lean ====
section
/-! DEFINITION. The one flag of the core, `EQ` (R32, R33), and the `STATUS` view of the control state (R29). -/

namespace Sys2Proof.Machine

/-- The two-bit value of `PHASE` (R28). -/
def Phase.code : Phase → BitVec 2
  | .uninit => 0
  | .initialized => 1
  | .updated => 2
  | .final => 3

/-- The four-bit code of `CAUSE` (R200). -/
def Cause.code : Cause → BitVec 4
  | .noFault => 0
  | .illegalCmd => 1
  | .badAccess => 2
  | .uninitRead => 3
  | .length => 4
  | .range => 5
  | .overrun => 6
  | .finalized => 7

/-- Word-exact equality over eight words, the value that CMP gives `EQ` (R176). -/
def hashesEqual (a b : Vector Word 8) : Bool := decide (∀ j : Fin 8, a[j] = b[j])

/-- `STATUS.MSGV` (R29). -/
def State.msgv (s : State) : Bool := s.ctx.isSome

/-- `STATUS.LAST` (R29). -/
def State.last (s : State) : Bool :=
  match s.ctx with
  | none => false
  | some c => c.bcnt == c.nblk

/-- `STATUS` (R29), its fields from bit 31 down to bit 0. -/
def State.status (s : State) : Word :=
  (0 : BitVec 20) ++ s.cause.code ++ (0 : BitVec 2) ++ BitVec.ofBool s.last ++ BitVec.ofBool s.msgv
    ++ BitVec.ofBool s.eqFlag ++ BitVec.ofBool s.fault ++ s.phase.code

end Sys2Proof.Machine
end

