-- ==== Sys2Proof/Machine/RegMap.lean ====
section
/-! DEFINITION. The address map of the register window (R60): the registers by name, their offsets and who may access
them. -/

namespace Sys2Proof.Machine

/-- A register of the map R60. -/
inductive Reg where
  | cmd
  | status
  | finfo
  | msgBaseLo
  | msgBaseHi
  | msgLenLo
  | msgLenHi
  | curLo
  | curHi
  | remLo
  | remHi
  | tbitsLo
  | tbitsHi
  | nblkLo
  | nblkHi
  | bcntLo
  | bcntHi
  | lastc
  | h (j : Fin 8)
  | cv (j : Fin 8)
  | m (i : Fin 16)
  | w (i : Fin 64)
  | k (i : Fin 64)
  | iv (j : Fin 8)
deriving DecidableEq, Repr

/-- The column "offset" of R60. -/
def Reg.offset : Reg → BitVec 12
  | .cmd => 0x000
  | .status => 0x004
  | .finfo => 0x008
  | .msgBaseLo => 0x010
  | .msgBaseHi => 0x014
  | .msgLenLo => 0x018
  | .msgLenHi => 0x01C
  | .curLo => 0x020
  | .curHi => 0x024
  | .remLo => 0x028
  | .remHi => 0x02C
  | .tbitsLo => 0x030
  | .tbitsHi => 0x034
  | .nblkLo => 0x038
  | .nblkHi => 0x03C
  | .bcntLo => 0x040
  | .bcntHi => 0x044
  | .lastc => 0x048
  | .h j => BitVec.ofNat 12 (0x080 + 4 * j.val)
  | .cv j => BitVec.ofNat 12 (0x0A0 + 4 * j.val)
  | .m i => BitVec.ofNat 12 (0x0C0 + 4 * i.val)
  | .w i => BitVec.ofNat 12 (0x100 + 4 * i.val)
  | .k i => BitVec.ofNat 12 (0x200 + 4 * i.val)
  | .iv j => BitVec.ofNat 12 (0x300 + 4 * j.val)

/-- `off[1:0] ≠ 0` (R57). -/
def misaligned (off : BitVec 12) : Bool := off.extractLsb' 0 2 != 0

/-- The register at an offset, or none at a misaligned or reserved one (R57, R60, R61). -/
def regAt (off : BitVec 12) : Option Reg :=
  let o := off.toNat
  if misaligned off then none
  else if h : 0x080 ≤ o ∧ o ≤ 0x09F then some (.h ⟨(o - 0x080) / 4, by omega⟩)
  else if h : 0x0A0 ≤ o ∧ o ≤ 0x0BF then some (.cv ⟨(o - 0x0A0) / 4, by omega⟩)
  else if h : 0x0C0 ≤ o ∧ o ≤ 0x0FF then some (.m ⟨(o - 0x0C0) / 4, by omega⟩)
  else if h : 0x100 ≤ o ∧ o ≤ 0x1FF then some (.w ⟨(o - 0x100) / 4, by omega⟩)
  else if h : 0x200 ≤ o ∧ o ≤ 0x2FF then some (.k ⟨(o - 0x200) / 4, by omega⟩)
  else if h : 0x300 ≤ o ∧ o ≤ 0x31F then some (.iv ⟨(o - 0x300) / 4, by omega⟩)
  else
    match o with
    | 0x000 => some .cmd
    | 0x004 => some .status
    | 0x008 => some .finfo
    | 0x010 => some .msgBaseLo
    | 0x014 => some .msgBaseHi
    | 0x018 => some .msgLenLo
    | 0x01C => some .msgLenHi
    | 0x020 => some .curLo
    | 0x024 => some .curHi
    | 0x028 => some .remLo
    | 0x02C => some .remHi
    | 0x030 => some .tbitsLo
    | 0x034 => some .tbitsHi
    | 0x038 => some .nblkLo
    | 0x03C => some .nblkHi
    | 0x040 => some .bcntLo
    | 0x044 => some .bcntHi
    | 0x048 => some .lastc
    | _ => none

/-- The host may read every register of the map but `CMD` (R30, R60). -/
def Reg.readable (r : Reg) : Bool := r != .cmd

end Sys2Proof.Machine
end

