-- ==== Sys2Proof/Machine/Operands.lean ====
section
/-! DEFINITION. The implicit operands of the commands (R83, R84) and the contents of the registers that the host
reads and writes (R60, R63, R64). -/

namespace Sys2Proof.Machine

/-- The offset of element `i` of a register file that starts at `first` (R60). -/
def elementOffset (first : Word) (i : Nat) : Word := first + BitVec.ofNat 32 (4 * i)

/-- `base = MSG_BASE_HI ‖ MSG_BASE_LO` and `len = MSG_LEN_HI ‖ MSG_LEN_LO`, or the offset of the first of the four
words that holds ⊥, in the order of R172. -/
def State.descriptor (s : State) : Except Word (DWord × DWord) :=
  match s.msgBaseLo, s.msgBaseHi, s.msgLenLo, s.msgLenHi with
  | none, _, _, _ => .error 0x010
  | some _, none, _, _ => .error 0x014
  | some _, some _, none, _ => .error 0x018
  | some _, some _, some _, none => .error 0x01C
  | some baseLo, some baseHi, some lenLo, some lenHi => .ok (joinWords baseHi baseLo, joinWords lenHi lenLo)

/-- The block `M[0..15]`, or the offset of the lowest `M[i]` that holds ⊥ (R113, R138). -/
def State.block (s : State) : Except Word (Vector Word 16) :=
  match lowestBot s.m with
  | some i => .error (elementOffset 0x0C0 i)
  | none => .ok (words s.m)

/-- The compare value `CV[0..7]`, or the offset of the lowest `CV[j]` that holds ⊥ (R176). -/
def State.compareValue (s : State) : Except Word (Vector Word 8) :=
  match lowestBot s.cv with
  | some j => .error (elementOffset 0x0A0 j)
  | none => .ok (words s.cv)

/-- The hash state `H[0..7]`, or the offset of the lowest `H[j]` that holds ⊥. The commands look at `PHASE` first, and
`H` is ⊥ exactly when `PHASE = UNINIT` (R28), so this finds no ⊥ in any state a run reaches
(notes/assumptions/7.md). -/
def State.hash (s : State) : Except Word (Vector Word 8) :=
  match lowestBot s.h with
  | some j => .error (elementOffset 0x080 j)
  | none => .ok (words s.h)

/-- A half of a `CTX` field as the host sees it: ⊥ while `CTX = ⊥` (R60). -/
def State.ctxField (f : Ctx → Word) (s : State) : Option Word := s.ctx.map f

/-- The content of a register (R60); ⊥ is `none`. `CMD` keeps no value (R30). -/
def Reg.content (s : State) : Reg → Option Word
  | .cmd => none
  | .status => some s.status
  | .finfo => some s.finfo
  | .msgBaseLo => s.msgBaseLo
  | .msgBaseHi => s.msgBaseHi
  | .msgLenLo => s.msgLenLo
  | .msgLenHi => s.msgLenHi
  | .curLo => s.ctxField fun c => lowWord c.cur
  | .curHi => s.ctxField fun c => highWord c.cur
  | .remLo => s.ctxField fun c => lowWord c.rem
  | .remHi => s.ctxField fun c => highWord c.rem
  | .tbitsLo => s.ctxField fun c => lowWord c.tbits
  | .tbitsHi => s.ctxField fun c => highWord c.tbits
  | .nblkLo => s.ctxField fun c => lowWord c.nblk
  | .nblkHi => s.ctxField fun c => highWord c.nblk
  | .bcntLo => s.ctxField fun c => lowWord c.bcnt
  | .bcntHi => s.ctxField fun c => highWord c.bcnt
  | .lastc => s.ctxField fun c => c.lastc.setWidth 32
  | .h j => s.h[j]
  | .cv j => s.cv[j]
  | .m i => s.m[i]
  | .w i => s.w[i]
  | .k i => some K[i]
  | .iv j => some IV[j]

/-- What a host write of `v` to a register other than `CMD` leaves, or none where R60 gives the host no write (R63). -/
def Reg.store (v : Word) (s : State) : Reg → Option State
  | .msgBaseLo => some (s.setMsgBaseLo v)
  | .msgBaseHi => some (s.setMsgBaseHi v)
  | .msgLenLo => some (s.setMsgLenLo v)
  | .msgLenHi => some (s.setMsgLenHi v)
  | .cv j => some (s.setCvWord j v)
  | .m i => some (s.setMWord i v)
  | .cmd | .status | .finfo => none
  | .curLo | .curHi | .remLo | .remHi | .tbitsLo | .tbitsHi | .nblkLo | .nblkHi | .bcntLo | .bcntHi | .lastc => none
  | .h _ | .w _ | .k _ | .iv _ => none

end Sys2Proof.Machine
end

