-- ==== Sys2Proof/Machine/Scheduler.lean ====
section
/-! DEFINITION. The message scheduler (spec/41_scheduler.md) and the command SCHED. -/

namespace Sys2Proof.Machine

/-- `σ0` (R110). -/
def smallSigma0 (x : Word) : Word := xor3 (rotr x 7) (rotr x 18) (shr x 3)

/-- `σ1` (R110). -/
def smallSigma1 (x : Word) : Word := xor3 (rotr x 17) (rotr x 19) (shr x 10)

/-- `Wt[i] <- Wt[i-16] +32 σ0(Wt[i-15]) +32 Wt[i-7] +32 σ1(Wt[i-2])` (R111). -/
def scheduleStep (i : Nat) (wt : Vector Word 64) : Vector Word 64 :=
  wt.set! i (wordAt wt (i - 16) + smallSigma0 (wordAt wt (i - 15)) + wordAt wt (i - 7) + smallSigma1 (wordAt wt (i - 2)))

/-- `for i in 0..15: Wt[i] <- B[i]` (R111); the loop of `schedule` writes the words from 16 on before it reads them. -/
def firstWords (b : Vector Word 16) : Vector Word 64 :=
  Vector.mk (Array.mk (b.toList ++ List.replicate 48 0)) (by simp)

/-- `Schedule(B)` (R111). -/
@[irreducible] def schedule (b : Vector Word 16) : Vector Word 64 :=
  forUp scheduleStep 48 16 (firstWords b)

/-- `SCHED` (R113). -/
def execSched (s : State) : Host.Outcome State Fault Refusal :=
  match s.block with
  | .error off => .next (s.raise .uninitRead off)
  | .ok b => .next (s.setW (schedule b))

end Sys2Proof.Machine
end

