-- ==== Sys2Proof/Machine/Compression.lean ====
section
/-! DEFINITION. The compression core (spec/42_compression.md) and the command COMPRESS. -/

namespace Sys2Proof.Machine

/-- `Σ0` (R130). -/
def bigSigma0 (x : Word) : Word := xor3 (rotr x 2) (rotr x 13) (rotr x 22)

/-- `Σ1` (R130). -/
def bigSigma1 (x : Word) : Word := xor3 (rotr x 6) (rotr x 11) (rotr x 25)

/-- `Ch` (R131). -/
def ch (e f g : Word) : Word := (e &&& f) ^^^ (~~~e &&& g)

/-- `Maj` (R132). -/
def maj (a b c : Word) : Word := xor3 (a &&& b) (a &&& c) (b &&& c)

/-- The eight working variables, internal to one COMPRESS (R35). -/
structure Working where
  a : Word
  b : Word
  c : Word
  d : Word
  e : Word
  f : Word
  g : Word
  h : Word
deriving DecidableEq, Repr

/-- `temp1` of round `i` (R133). -/
def temp1 (wt : Vector Word 64) (i : Nat) (e f g h : Word) : Word :=
  h + bigSigma1 e + ch e f g + wordAt K i + wordAt wt i

/-- `temp2` of a round (R133). -/
def temp2 (a b c : Word) : Word := bigSigma0 a + maj a b c

/-- `Round(v, i, Wt)` (R133): every new value comes from the old ones. -/
def shaRound (wt : Vector Word 64) (i : Nat) (v : Working) : Working :=
  let t1 := temp1 wt i v.e v.f v.g v.h
  { a := t1 + temp2 v.a v.b v.c, b := v.a, c := v.b, d := v.c, e := v.d + t1, f := v.e, g := v.f, h := v.g }

/-- The working variables at the start of a block (R134). -/
def Working.ofHash (hs : Vector Word 8) : Working :=
  { a := hs[0], b := hs[1], c := hs[2], d := hs[3], e := hs[4], f := hs[5], g := hs[6], h := hs[7] }

/-- The feed-forward `H'[j] = H[j] +32 v64[j]` (R136), each variable to its own hash word (R134). -/
def feedForward (hs : Vector Word 8) (v : Working) : Vector Word 8 :=
  #v[hs[0] + v.a, hs[1] + v.b, hs[2] + v.c, hs[3] + v.d, hs[4] + v.e, hs[5] + v.f, hs[6] + v.g, hs[7] + v.h]

/-- What `Compress` returns: the next hash state and the schedule it used (R137). -/
structure Compressed where
  hash : Vector Word 8
  sched : Vector Word 64
deriving DecidableEq, Repr

/-- `Compress(Hs, B)` (R137). -/
@[irreducible] def compress (hs : Vector Word 8) (b : Vector Word 16) : Compressed :=
  let wt := schedule b
  { hash := feedForward hs (forUp (shaRound wt) 64 0 (Working.ofHash hs)), sched := wt }

/-- The writes of COMPRESS once its checks have passed (R138). -/
def State.foldBlock (hs : Vector Word 8) (b : Vector Word 16) (s : State) : State :=
  let r := compress hs b
  ((s.setW r.sched).setH r.hash).setPhase .updated

/-- COMPRESS after the checks of `PHASE` (R138). -/
def State.compressM (s : State) : State :=
  match s.block with
  | .error off => s.raise .uninitRead off
  | .ok b =>
    match s.hash with
    | .error off => s.raise .uninitRead off
    | .ok hs => s.foldBlock hs b

/-- `COMPRESS` (R138). -/
def execCompress (s : State) : Host.Outcome State Fault Refusal :=
  match s.phase with
  | .uninit => .next (s.raise .uninitRead 0x080)
  | .final => .next (s.raise .finalized 0x00000005)
  | .initialized => .next s.compressM
  | .updated => .next s.compressM

end Sys2Proof.Machine
end

