-- ==== Sys2Proof/Machine/Padding.lean ====
section
/-! DEFINITION. The message padding and block filler (spec/43_padding.md) and the command FILL. -/

namespace Sys2Proof.Machine

/-- What `Fill` returns: a block and the count of message bytes consumed (R150). -/
structure Filled where
  block : Vector Word 16
  consumed : Nat
deriving DecidableEq, Repr

/-- Step 1 of R151: up to 64 bytes. -/
def consumedBytes (rem : Nat) : Nat := min rem 64

/-- Step 3 of R151: whether the marker byte is written (R152). -/
def markerWritten (c : Nat) (tbits : DWord) : Bool :=
  decide (c < 64) && (decide (0 < c) || decide (tbits.toNat % 512 = 0))

/-- The words that hold message bytes or the marker (R151, R153). -/
def usedWords (c : Nat) (tbits : DWord) : Nat := if markerWritten c tbits then c / 4 + 1 else 0

/-- Step 4 of R151: whether the length field fits in this block (R153). -/
def lengthFits (c : Nat) (tbits : DWord) : Bool := decide (c < 64) && decide (usedWords c tbits ≤ 14)

/-- `Bb[k]` when R151 has run: the last write to the byte decides (length, then marker, then message, then zero). -/
def fillByte (mem : Memory) (cur c : Nat) (tbits : DWord) (k : Nat) : Byte :=
  if lengthFits c tbits && decide (56 ≤ k) then lengthByte tbits (k - 56)
  else if markerWritten c tbits && decide (k = c) then 0x80
  else if k < c then mem.read (cur + k)
  else 0x00

/-- `Fill(cur, rem, tbits)` (R150, R151). `cur + k` is exact. -/
@[irreducible] def fill (mem : Memory) (cur rem : Nat) (tbits : DWord) : Filled :=
  let c := consumedBytes rem
  let bb := fillByte mem cur c tbits
  { block := Vector.ofFn fun i => packWord (bb (4 * i)) (bb (4 * i + 1)) (bb (4 * i + 2)) (bb (4 * i + 3))
    consumed := c }

/-- The eight bytes of the length field, the most significant first (R53). -/
def lengthField (tbits : DWord) : List Byte :=
  [lengthByte tbits 0, lengthByte tbits 1, lengthByte tbits 2, lengthByte tbits 3, lengthByte tbits 4,
    lengthByte tbits 5, lengthByte tbits 6, lengthByte tbits 7]

/-- `NBlocks(len) = ceil((8·len + 65) / 512)`, exact (R157). -/
def nBlocks (len : Nat) : Nat := (8 * len + 65 + 511) / 512

/-- The context after a FILL that consumed `c` bytes (R156). `past` is what `CUR` holds when the exact sum `CUR + c`
is outside its 64 bits (notes/assumptions/3.md). -/
def Ctx.advance (x : Ctx) (c : Nat) (past : DWord) : Ctx :=
  { x with
    cur := if x.cur.toNat + c < 2 ^ 64 then x.cur + BitVec.ofNat 64 c else past
    rem := x.rem - BitVec.ofNat 64 c
    lastc := BitVec.ofNat 7 c
    bcnt := x.bcnt + 1 }

/-- The free values that an advance by `c` bytes takes: one when the exact sum `CUR + c` is outside 64 bits. -/
def Ctx.freeTaken (x : Ctx) (c : Nat) : Nat := if x.cur.toNat + c < 2 ^ 64 then 0 else 1

/-- The writes of FILL once its checks have passed (R156). -/
def State.materialise (x : Ctx) (s : State) : State :=
  let r := fill s.mem x.cur.toNat x.rem.toNat x.tbits
  ((s.setM r.block).setCtx (x.advance r.consumed (Config.curPastTop s.freeCount))).setFreeCount
    (s.freeCount + x.freeTaken r.consumed)

/-- Whether FILL would read an address outside the message memory. R51 says no run does. -/
def readsOutside (x : Ctx) (s : State) : Bool :=
  decide (0 < consumedBytes x.rem.toNat) && decide (s.memBytes < x.cur.toNat + consumedBytes x.rem.toNat)

/-- `FILL` (R156). The last check is the model's own (notes/assumptions/6.md). -/
def execFill (s : State) : Host.Outcome State Fault Refusal :=
  match s.ctx with
  | none => .next (s.raise .uninitRead 0x020)
  | some x =>
    if x.bcnt = x.nblk then .next (s.raise .overrun 0x00000003)
    else if readsOutside x s then .fault (.noSuchAddress (max x.cur.toNat s.memBytes))
    else .next (s.materialise x)

end Sys2Proof.Machine
end

