-- ==== Sys2Proof/Machine/Driver.lean ====
section
/-! DEFINITION. The digest driver (spec/44_driver.md): INIT, LOAD, DIGEST, the compare command CMP, and the pure
digest function that claims are stated through. -/

namespace Sys2Proof.Machine

/-- The writes of INIT (R171). -/
def State.startHash (s : State) : State := (s.setH IV).setPhase .initialized

/-- `INIT` (R171). -/
def execInit (s : State) : Host.Outcome State Fault Refusal := .next s.startHash

/-- The largest whole-byte length whose bit count fits 64 bits (R8, R204). -/
def maxLen : Nat := 2 ^ 61 - 1

/-- The context of a message of `len` bytes at `base` (R172). -/
def Ctx.start (base len : DWord) : Ctx where
  cur := base
  rem := len
  tbits := BitVec.ofNat 64 (8 * len.toNat)
  nblk := BitVec.ofNat 64 (nBlocks len.toNat)
  bcnt := 0
  lastc := 0

/-- `LoadCtx(cw)` (R172): a context, or the cause and information of the fault it raises. -/
def loadCtx (cw : Word) (s : State) : Except (Cause × Word) Ctx :=
  match s.descriptor with
  | .error off => .error (.uninitRead, off)
  | .ok (base, len) =>
    if maxLen < len.toNat then .error (.length, cw)
    else if s.memBytes < base.toNat + len.toNat then .error (.range, cw)
    else .ok (Ctx.start base len)

/-- `LOAD` (R172). -/
def execLoad (s : State) : Host.Outcome State Fault Refusal :=
  match loadCtx 0x00000002 s with
  | .error (cause, info) => .next (s.raise cause info)
  | .ok x => .next (s.setCtx x)

/-- One turn of the block loop of DIGEST (R174): as FILL, then as COMPRESS. -/
def State.digestBlock (s : State) : State :=
  match s.ctx with
  | none => s
  | some x =>
    let t := s.materialise x
    t.foldBlock (words t.h) (words t.m)

/-- `repeat n times` of R174. -/
def State.digestBlocks : Nat → State → State
  | 0, s => s
  | n + 1, s => State.digestBlocks n s.digestBlock

/-- The writes of DIGEST once `LoadCtx` has given a context (R174). -/
def State.digestMessage (x : Ctx) (s : State) : State :=
  (State.digestBlocks x.nblk.toNat (s.startHash.setCtx x)).setPhase .final

/-- `DIGEST` (R174). -/
def execDigest (s : State) : Host.Outcome State Fault Refusal :=
  match loadCtx 0x00000006 s with
  | .error (cause, info) => .next (s.raise cause info)
  | .ok x => .next (s.digestMessage x)

/-- CMP after the check of `PHASE` (R176). -/
def State.compareCv (s : State) : State :=
  match s.compareValue with
  | .error off => s.raise .uninitRead off
  | .ok cv =>
    match s.hash with
    | .error off => s.raise .uninitRead off
    | .ok hs => s.setEq (hashesEqual hs cv)

/-- `CMP` (R176). -/
def execCmp (s : State) : Host.Outcome State Fault Refusal :=
  match s.phase with
  | .uninit => .next (s.raise .uninitRead 0x080)
  | .initialized => .next s.compareCv
  | .updated => .next s.compareCv
  | .final => .next s.compareCv

/-! ### The pure functions of R158 and R173 -/

/-- The blocks of `n` calls of `Fill`, each starting where the one before left off (R158). -/
def fillBlocks (mem : Memory) (tbits : DWord) : Nat → Nat → Nat → List Filled
  | 0, _, _ => []
  | n + 1, cur, rem =>
    let r := fill mem cur rem tbits
    r :: fillBlocks mem tbits n (cur + r.consumed) (rem - r.consumed)

/-- The blocks of the message of `len` bytes at `base` (R158). -/
def messageBlocks (mem : Memory) (base len : Nat) : List Filled :=
  fillBlocks mem (BitVec.ofNat 64 (8 * len)) (nBlocks len) base len

/-- `Digest(base, len)` (R173). -/
def digestOf (mem : Memory) (base len : Nat) : Vector Word 8 :=
  (messageBlocks mem base len).foldl (fun hs r => (compress hs r.block).hash) IV

/-- A list of words as bytes, each word most significant byte first (R52, R54). -/
def wordsToBytes (ws : List Word) : List Byte :=
  ws.flatMap fun x => [wordByte x 0, wordByte x 1, wordByte x 2, wordByte x 3]

/-- The digest written as 32 bytes, outside the core (R54). -/
def digestBytes (hs : Vector Word 8) : List Byte := wordsToBytes hs.toList

/-- The `len` bytes of the message at `base` (R26). -/
def messageBytes (mem : Memory) (base : Nat) : Nat → List Byte
  | 0 => []
  | len + 1 => mem.read base :: messageBytes mem (base + 1) len

end Sys2Proof.Machine
end

