-- ==== Sys2Proof/Machine/Dispatch.lean ====
section
/-! DEFINITION. The command that runs: one arm for each constructor of Instr (R82). -/

namespace Sys2Proof.Machine

def exec (i : Instr) (s : State) : Host.Outcome State Fault Refusal :=
  match i with
  | .init => Sys2Proof.Machine.execInit s
  | .load => Sys2Proof.Machine.execLoad s
  | .fill => Sys2Proof.Machine.execFill s
  | .sched => Sys2Proof.Machine.execSched s
  | .compress => Sys2Proof.Machine.execCompress s
  | .digest => Sys2Proof.Machine.execDigest s
  | .cmp => Sys2Proof.Machine.execCmp s

end Sys2Proof.Machine
end

