-- ==== Sys2Proof/Machine/Window.lean ====
section
/-! DEFINITION. The host's accesses to the register window (R63, R64), the issue of a command (R81), and the other
events that reach an instance: reset (R230) and host writes of the message memory (R50, R69). -/

namespace Sys2Proof.Machine

/-- `FINFO` of a failed write: bit 31 set and the offset (R202). -/
def writeInfo (off : BitVec 12) : Word := 0x80000000 ||| off.setWidth 32

/-- `FINFO` of a failed read: the offset (R202, R203). -/
def readInfo (off : BitVec 12) : Word := off.setWidth 32

/-- `IssueCommand(v)` (R81). -/
def issueCommand (v : Word) (s : State) : Host.Outcome State Fault Refusal :=
  match decode v with
  | .ok i => exec i s
  | .error _ => .next (s.raise .illegalCmd v)

/-- `HostWrite(off, v)` (R63). While `FAULT = 1` it is ignored (R67). -/
def hostWrite (off : BitVec 12) (v : Word) (s : State) : Host.Outcome State Fault Refusal :=
  if s.fault then .next s
  else
    match regAt off with
    | none => .next (s.raise .badAccess (writeInfo off))
    | some .cmd => issueCommand v s
    | some r =>
      match r.store v s with
      | some t => .next t
      | none => .next (s.raise .badAccess (writeInfo off))

/-- `HostRead(off)` (R64): the state it leaves and the word it returns, or no data. While `FAULT = 1` the fault record
stays as it is (R67, R210). -/
def hostRead (off : BitVec 12) (s : State) : State × Option Word :=
  match regAt off with
  | none => (s.raise .badAccess (readInfo off), none)
  | some r =>
    if r.readable then
      match r.content s with
      | some v => (s, some v)
      | none => (s.raise .uninitRead (readInfo off), none)
    else (s.raise .badAccess (readInfo off), none)

/-- A host access of R87; a read leaves its result with the host. -/
def hostAccess (a : Access) (s : State) : Host.Outcome State Fault Refusal :=
  match a with
  | .write off v => hostWrite off v s
  | .read off =>
    let r := hostRead off s
    .next (r.1.addResult { off := off, data := r.2 })

/-- A host write of one byte of the message memory (R50). The core has no part in it, so `FAULT` does not matter. An
address outside the memory does not exist (notes/assumptions/5.md). -/
def hostPoke (addr : DWord) (b : Byte) (s : State) : Host.Outcome State Fault Refusal :=
  if addr.toNat < s.memBytes then .next (s.setMem (s.mem.write addr.toNat b))
  else .fault (.noSuchAddress addr.toNat)

/-- One event from outside. -/
def hostEvent (e : HostEvent) (s : State) : Host.Outcome State Fault Refusal :=
  match e with
  | .access a => hostAccess a s
  | .reset => .next s.applyReset
  | .poke addr b => hostPoke addr b s

end Sys2Proof.Machine
end

