-- ==== Sys2Proof/Machine/Step.lean ====
section
/-! DEFINITION. One step: the next host event happens, whole (R17, R58, R69). -/

namespace Sys2Proof.Machine

/-- The next host event happens. With none pending the instance waits, unchanged (R222, R231). -/
def step (s : State) : Host.Outcome State Fault Refusal :=
  match s.pending with
  | [] => .next s
  | e :: rest => hostEvent e (s.setPending rest)

/-- The state in which the host's next access writes the command word to `CMD` (R81): where the core's next command
comes from (R37). See notes/assumptions/4.md. -/
def State.withFetchWord (s : State) (nbits w : Nat) : State :=
  s.setPending (.access (.write 0x000 (tableWord nbits w)) :: s.pending)

end Sys2Proof.Machine
end

