-- ==== Sys2Proof/Laws/State.lean ====
section
/-! SUPPORT. What each update of the state does to each field, so that no proof unfolds a record update. -/

namespace Sys2Proof.Machine

variable (s : State)

@[simp] theorem State.setH_h (v : Vector Word 8) : (s.setH v).h = written v := rfl
@[simp] theorem State.setH_m (v : Vector Word 8) : (s.setH v).m = s.m := rfl
@[simp] theorem State.setH_w (v : Vector Word 8) : (s.setH v).w = s.w := rfl
@[simp] theorem State.setH_cv (v : Vector Word 8) : (s.setH v).cv = s.cv := rfl
@[simp] theorem State.setH_msgBaseLo (v : Vector Word 8) : (s.setH v).msgBaseLo = s.msgBaseLo := rfl
@[simp] theorem State.setH_msgBaseHi (v : Vector Word 8) : (s.setH v).msgBaseHi = s.msgBaseHi := rfl
@[simp] theorem State.setH_msgLenLo (v : Vector Word 8) : (s.setH v).msgLenLo = s.msgLenLo := rfl
@[simp] theorem State.setH_msgLenHi (v : Vector Word 8) : (s.setH v).msgLenHi = s.msgLenHi := rfl
@[simp] theorem State.setH_ctx (v : Vector Word 8) : (s.setH v).ctx = s.ctx := rfl
@[simp] theorem State.setH_phase (v : Vector Word 8) : (s.setH v).phase = s.phase := rfl
@[simp] theorem State.setH_fault (v : Vector Word 8) : (s.setH v).fault = s.fault := rfl
@[simp] theorem State.setH_cause (v : Vector Word 8) : (s.setH v).cause = s.cause := rfl
@[simp] theorem State.setH_finfo (v : Vector Word 8) : (s.setH v).finfo = s.finfo := rfl
@[simp] theorem State.setH_eqFlag (v : Vector Word 8) : (s.setH v).eqFlag = s.eqFlag := rfl
@[simp] theorem State.setH_mem (v : Vector Word 8) : (s.setH v).mem = s.mem := rfl
@[simp] theorem State.setH_memLast (v : Vector Word 8) : (s.setH v).memLast = s.memLast := rfl
@[simp] theorem State.setH_pending (v : Vector Word 8) : (s.setH v).pending = s.pending := rfl
@[simp] theorem State.setH_results (v : Vector Word 8) : (s.setH v).results = s.results := rfl
@[simp] theorem State.setH_freeCount (v : Vector Word 8) : (s.setH v).freeCount = s.freeCount := rfl
@[simp] theorem State.setH_memBytes (v : Vector Word 8) : (s.setH v).memBytes = s.memBytes := rfl

@[simp] theorem State.setM_h (v : Vector Word 16) : (s.setM v).h = s.h := rfl
@[simp] theorem State.setM_m (v : Vector Word 16) : (s.setM v).m = written v := rfl
@[simp] theorem State.setM_w (v : Vector Word 16) : (s.setM v).w = s.w := rfl
@[simp] theorem State.setM_cv (v : Vector Word 16) : (s.setM v).cv = s.cv := rfl
@[simp] theorem State.setM_msgBaseLo (v : Vector Word 16) : (s.setM v).msgBaseLo = s.msgBaseLo := rfl
@[simp] theorem State.setM_msgBaseHi (v : Vector Word 16) : (s.setM v).msgBaseHi = s.msgBaseHi := rfl
@[simp] theorem State.setM_msgLenLo (v : Vector Word 16) : (s.setM v).msgLenLo = s.msgLenLo := rfl
@[simp] theorem State.setM_msgLenHi (v : Vector Word 16) : (s.setM v).msgLenHi = s.msgLenHi := rfl
@[simp] theorem State.setM_ctx (v : Vector Word 16) : (s.setM v).ctx = s.ctx := rfl
@[simp] theorem State.setM_phase (v : Vector Word 16) : (s.setM v).phase = s.phase := rfl
@[simp] theorem State.setM_fault (v : Vector Word 16) : (s.setM v).fault = s.fault := rfl
@[simp] theorem State.setM_cause (v : Vector Word 16) : (s.setM v).cause = s.cause := rfl
@[simp] theorem State.setM_finfo (v : Vector Word 16) : (s.setM v).finfo = s.finfo := rfl
@[simp] theorem State.setM_eqFlag (v : Vector Word 16) : (s.setM v).eqFlag = s.eqFlag := rfl
@[simp] theorem State.setM_mem (v : Vector Word 16) : (s.setM v).mem = s.mem := rfl
@[simp] theorem State.setM_memLast (v : Vector Word 16) : (s.setM v).memLast = s.memLast := rfl
@[simp] theorem State.setM_pending (v : Vector Word 16) : (s.setM v).pending = s.pending := rfl
@[simp] theorem State.setM_results (v : Vector Word 16) : (s.setM v).results = s.results := rfl
@[simp] theorem State.setM_freeCount (v : Vector Word 16) : (s.setM v).freeCount = s.freeCount := rfl
@[simp] theorem State.setM_memBytes (v : Vector Word 16) : (s.setM v).memBytes = s.memBytes := rfl

@[simp] theorem State.setW_h (v : Vector Word 64) : (s.setW v).h = s.h := rfl
@[simp] theorem State.setW_m (v : Vector Word 64) : (s.setW v).m = s.m := rfl
@[simp] theorem State.setW_w (v : Vector Word 64) : (s.setW v).w = written v := rfl
@[simp] theorem State.setW_cv (v : Vector Word 64) : (s.setW v).cv = s.cv := rfl
@[simp] theorem State.setW_msgBaseLo (v : Vector Word 64) : (s.setW v).msgBaseLo = s.msgBaseLo := rfl
@[simp] theorem State.setW_msgBaseHi (v : Vector Word 64) : (s.setW v).msgBaseHi = s.msgBaseHi := rfl
@[simp] theorem State.setW_msgLenLo (v : Vector Word 64) : (s.setW v).msgLenLo = s.msgLenLo := rfl
@[simp] theorem State.setW_msgLenHi (v : Vector Word 64) : (s.setW v).msgLenHi = s.msgLenHi := rfl
@[simp] theorem State.setW_ctx (v : Vector Word 64) : (s.setW v).ctx = s.ctx := rfl
@[simp] theorem State.setW_phase (v : Vector Word 64) : (s.setW v).phase = s.phase := rfl
@[simp] theorem State.setW_fault (v : Vector Word 64) : (s.setW v).fault = s.fault := rfl
@[simp] theorem State.setW_cause (v : Vector Word 64) : (s.setW v).cause = s.cause := rfl
@[simp] theorem State.setW_finfo (v : Vector Word 64) : (s.setW v).finfo = s.finfo := rfl
@[simp] theorem State.setW_eqFlag (v : Vector Word 64) : (s.setW v).eqFlag = s.eqFlag := rfl
@[simp] theorem State.setW_mem (v : Vector Word 64) : (s.setW v).mem = s.mem := rfl
@[simp] theorem State.setW_memLast (v : Vector Word 64) : (s.setW v).memLast = s.memLast := rfl
@[simp] theorem State.setW_pending (v : Vector Word 64) : (s.setW v).pending = s.pending := rfl
@[simp] theorem State.setW_results (v : Vector Word 64) : (s.setW v).results = s.results := rfl
@[simp] theorem State.setW_freeCount (v : Vector Word 64) : (s.setW v).freeCount = s.freeCount := rfl
@[simp] theorem State.setW_memBytes (v : Vector Word 64) : (s.setW v).memBytes = s.memBytes := rfl

@[simp] theorem State.setMWord_h (i : Fin 16) (v : Word) : (s.setMWord i v).h = s.h := rfl
@[simp] theorem State.setMWord_m (i : Fin 16) (v : Word) : (s.setMWord i v).m = s.m.set i.val (some v) i.isLt := rfl
@[simp] theorem State.setMWord_w (i : Fin 16) (v : Word) : (s.setMWord i v).w = s.w := rfl
@[simp] theorem State.setMWord_cv (i : Fin 16) (v : Word) : (s.setMWord i v).cv = s.cv := rfl
@[simp] theorem State.setMWord_msgBaseLo (i : Fin 16) (v : Word) : (s.setMWord i v).msgBaseLo = s.msgBaseLo := rfl
@[simp] theorem State.setMWord_msgBaseHi (i : Fin 16) (v : Word) : (s.setMWord i v).msgBaseHi = s.msgBaseHi := rfl
@[simp] theorem State.setMWord_msgLenLo (i : Fin 16) (v : Word) : (s.setMWord i v).msgLenLo = s.msgLenLo := rfl
@[simp] theorem State.setMWord_msgLenHi (i : Fin 16) (v : Word) : (s.setMWord i v).msgLenHi = s.msgLenHi := rfl
@[simp] theorem State.setMWord_ctx (i : Fin 16) (v : Word) : (s.setMWord i v).ctx = s.ctx := rfl
@[simp] theorem State.setMWord_phase (i : Fin 16) (v : Word) : (s.setMWord i v).phase = s.phase := rfl
@[simp] theorem State.setMWord_fault (i : Fin 16) (v : Word) : (s.setMWord i v).fault = s.fault := rfl
@[simp] theorem State.setMWord_cause (i : Fin 16) (v : Word) : (s.setMWord i v).cause = s.cause := rfl
@[simp] theorem State.setMWord_finfo (i : Fin 16) (v : Word) : (s.setMWord i v).finfo = s.finfo := rfl
@[simp] theorem State.setMWord_eqFlag (i : Fin 16) (v : Word) : (s.setMWord i v).eqFlag = s.eqFlag := rfl
@[simp] theorem State.setMWord_mem (i : Fin 16) (v : Word) : (s.setMWord i v).mem = s.mem := rfl
@[simp] theorem State.setMWord_memLast (i : Fin 16) (v : Word) : (s.setMWord i v).memLast = s.memLast := rfl
@[simp] theorem State.setMWord_pending (i : Fin 16) (v : Word) : (s.setMWord i v).pending = s.pending := rfl
@[simp] theorem State.setMWord_results (i : Fin 16) (v : Word) : (s.setMWord i v).results = s.results := rfl
@[simp] theorem State.setMWord_freeCount (i : Fin 16) (v : Word) : (s.setMWord i v).freeCount = s.freeCount := rfl
@[simp] theorem State.setMWord_memBytes (i : Fin 16) (v : Word) : (s.setMWord i v).memBytes = s.memBytes := rfl

@[simp] theorem State.setCvWord_h (j : Fin 8) (v : Word) : (s.setCvWord j v).h = s.h := rfl
@[simp] theorem State.setCvWord_m (j : Fin 8) (v : Word) : (s.setCvWord j v).m = s.m := rfl
@[simp] theorem State.setCvWord_w (j : Fin 8) (v : Word) : (s.setCvWord j v).w = s.w := rfl
@[simp] theorem State.setCvWord_cv (j : Fin 8) (v : Word) : (s.setCvWord j v).cv = s.cv.set j.val (some v) j.isLt := rfl
@[simp] theorem State.setCvWord_msgBaseLo (j : Fin 8) (v : Word) : (s.setCvWord j v).msgBaseLo = s.msgBaseLo := rfl
@[simp] theorem State.setCvWord_msgBaseHi (j : Fin 8) (v : Word) : (s.setCvWord j v).msgBaseHi = s.msgBaseHi := rfl
@[simp] theorem State.setCvWord_msgLenLo (j : Fin 8) (v : Word) : (s.setCvWord j v).msgLenLo = s.msgLenLo := rfl
@[simp] theorem State.setCvWord_msgLenHi (j : Fin 8) (v : Word) : (s.setCvWord j v).msgLenHi = s.msgLenHi := rfl
@[simp] theorem State.setCvWord_ctx (j : Fin 8) (v : Word) : (s.setCvWord j v).ctx = s.ctx := rfl
@[simp] theorem State.setCvWord_phase (j : Fin 8) (v : Word) : (s.setCvWord j v).phase = s.phase := rfl
@[simp] theorem State.setCvWord_fault (j : Fin 8) (v : Word) : (s.setCvWord j v).fault = s.fault := rfl
@[simp] theorem State.setCvWord_cause (j : Fin 8) (v : Word) : (s.setCvWord j v).cause = s.cause := rfl
@[simp] theorem State.setCvWord_finfo (j : Fin 8) (v : Word) : (s.setCvWord j v).finfo = s.finfo := rfl
@[simp] theorem State.setCvWord_eqFlag (j : Fin 8) (v : Word) : (s.setCvWord j v).eqFlag = s.eqFlag := rfl
@[simp] theorem State.setCvWord_mem (j : Fin 8) (v : Word) : (s.setCvWord j v).mem = s.mem := rfl
@[simp] theorem State.setCvWord_memLast (j : Fin 8) (v : Word) : (s.setCvWord j v).memLast = s.memLast := rfl
@[simp] theorem State.setCvWord_pending (j : Fin 8) (v : Word) : (s.setCvWord j v).pending = s.pending := rfl
@[simp] theorem State.setCvWord_results (j : Fin 8) (v : Word) : (s.setCvWord j v).results = s.results := rfl
@[simp] theorem State.setCvWord_freeCount (j : Fin 8) (v : Word) : (s.setCvWord j v).freeCount = s.freeCount := rfl
@[simp] theorem State.setCvWord_memBytes (j : Fin 8) (v : Word) : (s.setCvWord j v).memBytes = s.memBytes := rfl

@[simp] theorem State.setMsgBaseLo_h (v : Word) : (s.setMsgBaseLo v).h = s.h := rfl
@[simp] theorem State.setMsgBaseLo_m (v : Word) : (s.setMsgBaseLo v).m = s.m := rfl
@[simp] theorem State.setMsgBaseLo_w (v : Word) : (s.setMsgBaseLo v).w = s.w := rfl
@[simp] theorem State.setMsgBaseLo_cv (v : Word) : (s.setMsgBaseLo v).cv = s.cv := rfl
@[simp] theorem State.setMsgBaseLo_msgBaseLo (v : Word) : (s.setMsgBaseLo v).msgBaseLo = some v := rfl
@[simp] theorem State.setMsgBaseLo_msgBaseHi (v : Word) : (s.setMsgBaseLo v).msgBaseHi = s.msgBaseHi := rfl
@[simp] theorem State.setMsgBaseLo_msgLenLo (v : Word) : (s.setMsgBaseLo v).msgLenLo = s.msgLenLo := rfl
@[simp] theorem State.setMsgBaseLo_msgLenHi (v : Word) : (s.setMsgBaseLo v).msgLenHi = s.msgLenHi := rfl
@[simp] theorem State.setMsgBaseLo_ctx (v : Word) : (s.setMsgBaseLo v).ctx = s.ctx := rfl
@[simp] theorem State.setMsgBaseLo_phase (v : Word) : (s.setMsgBaseLo v).phase = s.phase := rfl
@[simp] theorem State.setMsgBaseLo_fault (v : Word) : (s.setMsgBaseLo v).fault = s.fault := rfl
@[simp] theorem State.setMsgBaseLo_cause (v : Word) : (s.setMsgBaseLo v).cause = s.cause := rfl
@[simp] theorem State.setMsgBaseLo_finfo (v : Word) : (s.setMsgBaseLo v).finfo = s.finfo := rfl
@[simp] theorem State.setMsgBaseLo_eqFlag (v : Word) : (s.setMsgBaseLo v).eqFlag = s.eqFlag := rfl
@[simp] theorem State.setMsgBaseLo_mem (v : Word) : (s.setMsgBaseLo v).mem = s.mem := rfl
@[simp] theorem State.setMsgBaseLo_memLast (v : Word) : (s.setMsgBaseLo v).memLast = s.memLast := rfl
@[simp] theorem State.setMsgBaseLo_pending (v : Word) : (s.setMsgBaseLo v).pending = s.pending := rfl
@[simp] theorem State.setMsgBaseLo_results (v : Word) : (s.setMsgBaseLo v).results = s.results := rfl
@[simp] theorem State.setMsgBaseLo_freeCount (v : Word) : (s.setMsgBaseLo v).freeCount = s.freeCount := rfl
@[simp] theorem State.setMsgBaseLo_memBytes (v : Word) : (s.setMsgBaseLo v).memBytes = s.memBytes := rfl

@[simp] theorem State.setMsgBaseHi_h (v : Word) : (s.setMsgBaseHi v).h = s.h := rfl
@[simp] theorem State.setMsgBaseHi_m (v : Word) : (s.setMsgBaseHi v).m = s.m := rfl
@[simp] theorem State.setMsgBaseHi_w (v : Word) : (s.setMsgBaseHi v).w = s.w := rfl
@[simp] theorem State.setMsgBaseHi_cv (v : Word) : (s.setMsgBaseHi v).cv = s.cv := rfl
@[simp] theorem State.setMsgBaseHi_msgBaseLo (v : Word) : (s.setMsgBaseHi v).msgBaseLo = s.msgBaseLo := rfl
@[simp] theorem State.setMsgBaseHi_msgBaseHi (v : Word) : (s.setMsgBaseHi v).msgBaseHi = some v := rfl
@[simp] theorem State.setMsgBaseHi_msgLenLo (v : Word) : (s.setMsgBaseHi v).msgLenLo = s.msgLenLo := rfl
@[simp] theorem State.setMsgBaseHi_msgLenHi (v : Word) : (s.setMsgBaseHi v).msgLenHi = s.msgLenHi := rfl
@[simp] theorem State.setMsgBaseHi_ctx (v : Word) : (s.setMsgBaseHi v).ctx = s.ctx := rfl
@[simp] theorem State.setMsgBaseHi_phase (v : Word) : (s.setMsgBaseHi v).phase = s.phase := rfl
@[simp] theorem State.setMsgBaseHi_fault (v : Word) : (s.setMsgBaseHi v).fault = s.fault := rfl
@[simp] theorem State.setMsgBaseHi_cause (v : Word) : (s.setMsgBaseHi v).cause = s.cause := rfl
@[simp] theorem State.setMsgBaseHi_finfo (v : Word) : (s.setMsgBaseHi v).finfo = s.finfo := rfl
@[simp] theorem State.setMsgBaseHi_eqFlag (v : Word) : (s.setMsgBaseHi v).eqFlag = s.eqFlag := rfl
@[simp] theorem State.setMsgBaseHi_mem (v : Word) : (s.setMsgBaseHi v).mem = s.mem := rfl
@[simp] theorem State.setMsgBaseHi_memLast (v : Word) : (s.setMsgBaseHi v).memLast = s.memLast := rfl
@[simp] theorem State.setMsgBaseHi_pending (v : Word) : (s.setMsgBaseHi v).pending = s.pending := rfl
@[simp] theorem State.setMsgBaseHi_results (v : Word) : (s.setMsgBaseHi v).results = s.results := rfl
@[simp] theorem State.setMsgBaseHi_freeCount (v : Word) : (s.setMsgBaseHi v).freeCount = s.freeCount := rfl
@[simp] theorem State.setMsgBaseHi_memBytes (v : Word) : (s.setMsgBaseHi v).memBytes = s.memBytes := rfl

@[simp] theorem State.setMsgLenLo_h (v : Word) : (s.setMsgLenLo v).h = s.h := rfl
@[simp] theorem State.setMsgLenLo_m (v : Word) : (s.setMsgLenLo v).m = s.m := rfl
@[simp] theorem State.setMsgLenLo_w (v : Word) : (s.setMsgLenLo v).w = s.w := rfl
@[simp] theorem State.setMsgLenLo_cv (v : Word) : (s.setMsgLenLo v).cv = s.cv := rfl
@[simp] theorem State.setMsgLenLo_msgBaseLo (v : Word) : (s.setMsgLenLo v).msgBaseLo = s.msgBaseLo := rfl
@[simp] theorem State.setMsgLenLo_msgBaseHi (v : Word) : (s.setMsgLenLo v).msgBaseHi = s.msgBaseHi := rfl
@[simp] theorem State.setMsgLenLo_msgLenLo (v : Word) : (s.setMsgLenLo v).msgLenLo = some v := rfl
@[simp] theorem State.setMsgLenLo_msgLenHi (v : Word) : (s.setMsgLenLo v).msgLenHi = s.msgLenHi := rfl
@[simp] theorem State.setMsgLenLo_ctx (v : Word) : (s.setMsgLenLo v).ctx = s.ctx := rfl
@[simp] theorem State.setMsgLenLo_phase (v : Word) : (s.setMsgLenLo v).phase = s.phase := rfl
@[simp] theorem State.setMsgLenLo_fault (v : Word) : (s.setMsgLenLo v).fault = s.fault := rfl
@[simp] theorem State.setMsgLenLo_cause (v : Word) : (s.setMsgLenLo v).cause = s.cause := rfl
@[simp] theorem State.setMsgLenLo_finfo (v : Word) : (s.setMsgLenLo v).finfo = s.finfo := rfl
@[simp] theorem State.setMsgLenLo_eqFlag (v : Word) : (s.setMsgLenLo v).eqFlag = s.eqFlag := rfl
@[simp] theorem State.setMsgLenLo_mem (v : Word) : (s.setMsgLenLo v).mem = s.mem := rfl
@[simp] theorem State.setMsgLenLo_memLast (v : Word) : (s.setMsgLenLo v).memLast = s.memLast := rfl
@[simp] theorem State.setMsgLenLo_pending (v : Word) : (s.setMsgLenLo v).pending = s.pending := rfl
@[simp] theorem State.setMsgLenLo_results (v : Word) : (s.setMsgLenLo v).results = s.results := rfl
@[simp] theorem State.setMsgLenLo_freeCount (v : Word) : (s.setMsgLenLo v).freeCount = s.freeCount := rfl
@[simp] theorem State.setMsgLenLo_memBytes (v : Word) : (s.setMsgLenLo v).memBytes = s.memBytes := rfl

@[simp] theorem State.setMsgLenHi_h (v : Word) : (s.setMsgLenHi v).h = s.h := rfl
@[simp] theorem State.setMsgLenHi_m (v : Word) : (s.setMsgLenHi v).m = s.m := rfl
@[simp] theorem State.setMsgLenHi_w (v : Word) : (s.setMsgLenHi v).w = s.w := rfl
@[simp] theorem State.setMsgLenHi_cv (v : Word) : (s.setMsgLenHi v).cv = s.cv := rfl
@[simp] theorem State.setMsgLenHi_msgBaseLo (v : Word) : (s.setMsgLenHi v).msgBaseLo = s.msgBaseLo := rfl
@[simp] theorem State.setMsgLenHi_msgBaseHi (v : Word) : (s.setMsgLenHi v).msgBaseHi = s.msgBaseHi := rfl
@[simp] theorem State.setMsgLenHi_msgLenLo (v : Word) : (s.setMsgLenHi v).msgLenLo = s.msgLenLo := rfl
@[simp] theorem State.setMsgLenHi_msgLenHi (v : Word) : (s.setMsgLenHi v).msgLenHi = some v := rfl
@[simp] theorem State.setMsgLenHi_ctx (v : Word) : (s.setMsgLenHi v).ctx = s.ctx := rfl
@[simp] theorem State.setMsgLenHi_phase (v : Word) : (s.setMsgLenHi v).phase = s.phase := rfl
@[simp] theorem State.setMsgLenHi_fault (v : Word) : (s.setMsgLenHi v).fault = s.fault := rfl
@[simp] theorem State.setMsgLenHi_cause (v : Word) : (s.setMsgLenHi v).cause = s.cause := rfl
@[simp] theorem State.setMsgLenHi_finfo (v : Word) : (s.setMsgLenHi v).finfo = s.finfo := rfl
@[simp] theorem State.setMsgLenHi_eqFlag (v : Word) : (s.setMsgLenHi v).eqFlag = s.eqFlag := rfl
@[simp] theorem State.setMsgLenHi_mem (v : Word) : (s.setMsgLenHi v).mem = s.mem := rfl
@[simp] theorem State.setMsgLenHi_memLast (v : Word) : (s.setMsgLenHi v).memLast = s.memLast := rfl
@[simp] theorem State.setMsgLenHi_pending (v : Word) : (s.setMsgLenHi v).pending = s.pending := rfl
@[simp] theorem State.setMsgLenHi_results (v : Word) : (s.setMsgLenHi v).results = s.results := rfl
@[simp] theorem State.setMsgLenHi_freeCount (v : Word) : (s.setMsgLenHi v).freeCount = s.freeCount := rfl
@[simp] theorem State.setMsgLenHi_memBytes (v : Word) : (s.setMsgLenHi v).memBytes = s.memBytes := rfl

@[simp] theorem State.setCtx_h (x : Ctx) : (s.setCtx x).h = s.h := rfl
@[simp] theorem State.setCtx_m (x : Ctx) : (s.setCtx x).m = s.m := rfl
@[simp] theorem State.setCtx_w (x : Ctx) : (s.setCtx x).w = s.w := rfl
@[simp] theorem State.setCtx_cv (x : Ctx) : (s.setCtx x).cv = s.cv := rfl
@[simp] theorem State.setCtx_msgBaseLo (x : Ctx) : (s.setCtx x).msgBaseLo = s.msgBaseLo := rfl
@[simp] theorem State.setCtx_msgBaseHi (x : Ctx) : (s.setCtx x).msgBaseHi = s.msgBaseHi := rfl
@[simp] theorem State.setCtx_msgLenLo (x : Ctx) : (s.setCtx x).msgLenLo = s.msgLenLo := rfl
@[simp] theorem State.setCtx_msgLenHi (x : Ctx) : (s.setCtx x).msgLenHi = s.msgLenHi := rfl
@[simp] theorem State.setCtx_ctx (x : Ctx) : (s.setCtx x).ctx = some x := rfl
@[simp] theorem State.setCtx_phase (x : Ctx) : (s.setCtx x).phase = s.phase := rfl
@[simp] theorem State.setCtx_fault (x : Ctx) : (s.setCtx x).fault = s.fault := rfl
@[simp] theorem State.setCtx_cause (x : Ctx) : (s.setCtx x).cause = s.cause := rfl
@[simp] theorem State.setCtx_finfo (x : Ctx) : (s.setCtx x).finfo = s.finfo := rfl
@[simp] theorem State.setCtx_eqFlag (x : Ctx) : (s.setCtx x).eqFlag = s.eqFlag := rfl
@[simp] theorem State.setCtx_mem (x : Ctx) : (s.setCtx x).mem = s.mem := rfl
@[simp] theorem State.setCtx_memLast (x : Ctx) : (s.setCtx x).memLast = s.memLast := rfl
@[simp] theorem State.setCtx_pending (x : Ctx) : (s.setCtx x).pending = s.pending := rfl
@[simp] theorem State.setCtx_results (x : Ctx) : (s.setCtx x).results = s.results := rfl
@[simp] theorem State.setCtx_freeCount (x : Ctx) : (s.setCtx x).freeCount = s.freeCount := rfl
@[simp] theorem State.setCtx_memBytes (x : Ctx) : (s.setCtx x).memBytes = s.memBytes := rfl

@[simp] theorem State.setPhase_h (p : Phase) : (s.setPhase p).h = s.h := rfl
@[simp] theorem State.setPhase_m (p : Phase) : (s.setPhase p).m = s.m := rfl
@[simp] theorem State.setPhase_w (p : Phase) : (s.setPhase p).w = s.w := rfl
@[simp] theorem State.setPhase_cv (p : Phase) : (s.setPhase p).cv = s.cv := rfl
@[simp] theorem State.setPhase_msgBaseLo (p : Phase) : (s.setPhase p).msgBaseLo = s.msgBaseLo := rfl
@[simp] theorem State.setPhase_msgBaseHi (p : Phase) : (s.setPhase p).msgBaseHi = s.msgBaseHi := rfl
@[simp] theorem State.setPhase_msgLenLo (p : Phase) : (s.setPhase p).msgLenLo = s.msgLenLo := rfl
@[simp] theorem State.setPhase_msgLenHi (p : Phase) : (s.setPhase p).msgLenHi = s.msgLenHi := rfl
@[simp] theorem State.setPhase_ctx (p : Phase) : (s.setPhase p).ctx = s.ctx := rfl
@[simp] theorem State.setPhase_phase (p : Phase) : (s.setPhase p).phase = p := rfl
@[simp] theorem State.setPhase_fault (p : Phase) : (s.setPhase p).fault = s.fault := rfl
@[simp] theorem State.setPhase_cause (p : Phase) : (s.setPhase p).cause = s.cause := rfl
@[simp] theorem State.setPhase_finfo (p : Phase) : (s.setPhase p).finfo = s.finfo := rfl
@[simp] theorem State.setPhase_eqFlag (p : Phase) : (s.setPhase p).eqFlag = s.eqFlag := rfl
@[simp] theorem State.setPhase_mem (p : Phase) : (s.setPhase p).mem = s.mem := rfl
@[simp] theorem State.setPhase_memLast (p : Phase) : (s.setPhase p).memLast = s.memLast := rfl
@[simp] theorem State.setPhase_pending (p : Phase) : (s.setPhase p).pending = s.pending := rfl
@[simp] theorem State.setPhase_results (p : Phase) : (s.setPhase p).results = s.results := rfl
@[simp] theorem State.setPhase_freeCount (p : Phase) : (s.setPhase p).freeCount = s.freeCount := rfl
@[simp] theorem State.setPhase_memBytes (p : Phase) : (s.setPhase p).memBytes = s.memBytes := rfl

@[simp] theorem State.setEq_h (b : Bool) : (s.setEq b).h = s.h := rfl
@[simp] theorem State.setEq_m (b : Bool) : (s.setEq b).m = s.m := rfl
@[simp] theorem State.setEq_w (b : Bool) : (s.setEq b).w = s.w := rfl
@[simp] theorem State.setEq_cv (b : Bool) : (s.setEq b).cv = s.cv := rfl
@[simp] theorem State.setEq_msgBaseLo (b : Bool) : (s.setEq b).msgBaseLo = s.msgBaseLo := rfl
@[simp] theorem State.setEq_msgBaseHi (b : Bool) : (s.setEq b).msgBaseHi = s.msgBaseHi := rfl
@[simp] theorem State.setEq_msgLenLo (b : Bool) : (s.setEq b).msgLenLo = s.msgLenLo := rfl
@[simp] theorem State.setEq_msgLenHi (b : Bool) : (s.setEq b).msgLenHi = s.msgLenHi := rfl
@[simp] theorem State.setEq_ctx (b : Bool) : (s.setEq b).ctx = s.ctx := rfl
@[simp] theorem State.setEq_phase (b : Bool) : (s.setEq b).phase = s.phase := rfl
@[simp] theorem State.setEq_fault (b : Bool) : (s.setEq b).fault = s.fault := rfl
@[simp] theorem State.setEq_cause (b : Bool) : (s.setEq b).cause = s.cause := rfl
@[simp] theorem State.setEq_finfo (b : Bool) : (s.setEq b).finfo = s.finfo := rfl
@[simp] theorem State.setEq_eqFlag (b : Bool) : (s.setEq b).eqFlag = b := rfl
@[simp] theorem State.setEq_mem (b : Bool) : (s.setEq b).mem = s.mem := rfl
@[simp] theorem State.setEq_memLast (b : Bool) : (s.setEq b).memLast = s.memLast := rfl
@[simp] theorem State.setEq_pending (b : Bool) : (s.setEq b).pending = s.pending := rfl
@[simp] theorem State.setEq_results (b : Bool) : (s.setEq b).results = s.results := rfl
@[simp] theorem State.setEq_freeCount (b : Bool) : (s.setEq b).freeCount = s.freeCount := rfl
@[simp] theorem State.setEq_memBytes (b : Bool) : (s.setEq b).memBytes = s.memBytes := rfl

@[simp] theorem State.setMem_h (mem : Memory) : (s.setMem mem).h = s.h := rfl
@[simp] theorem State.setMem_m (mem : Memory) : (s.setMem mem).m = s.m := rfl
@[simp] theorem State.setMem_w (mem : Memory) : (s.setMem mem).w = s.w := rfl
@[simp] theorem State.setMem_cv (mem : Memory) : (s.setMem mem).cv = s.cv := rfl
@[simp] theorem State.setMem_msgBaseLo (mem : Memory) : (s.setMem mem).msgBaseLo = s.msgBaseLo := rfl
@[simp] theorem State.setMem_msgBaseHi (mem : Memory) : (s.setMem mem).msgBaseHi = s.msgBaseHi := rfl
@[simp] theorem State.setMem_msgLenLo (mem : Memory) : (s.setMem mem).msgLenLo = s.msgLenLo := rfl
@[simp] theorem State.setMem_msgLenHi (mem : Memory) : (s.setMem mem).msgLenHi = s.msgLenHi := rfl
@[simp] theorem State.setMem_ctx (mem : Memory) : (s.setMem mem).ctx = s.ctx := rfl
@[simp] theorem State.setMem_phase (mem : Memory) : (s.setMem mem).phase = s.phase := rfl
@[simp] theorem State.setMem_fault (mem : Memory) : (s.setMem mem).fault = s.fault := rfl
@[simp] theorem State.setMem_cause (mem : Memory) : (s.setMem mem).cause = s.cause := rfl
@[simp] theorem State.setMem_finfo (mem : Memory) : (s.setMem mem).finfo = s.finfo := rfl
@[simp] theorem State.setMem_eqFlag (mem : Memory) : (s.setMem mem).eqFlag = s.eqFlag := rfl
@[simp] theorem State.setMem_mem (mem : Memory) : (s.setMem mem).mem = mem := rfl
@[simp] theorem State.setMem_memLast (mem : Memory) : (s.setMem mem).memLast = s.memLast := rfl
@[simp] theorem State.setMem_pending (mem : Memory) : (s.setMem mem).pending = s.pending := rfl
@[simp] theorem State.setMem_results (mem : Memory) : (s.setMem mem).results = s.results := rfl
@[simp] theorem State.setMem_freeCount (mem : Memory) : (s.setMem mem).freeCount = s.freeCount := rfl
@[simp] theorem State.setMem_memBytes (mem : Memory) : (s.setMem mem).memBytes = s.memBytes := rfl

@[simp] theorem State.setPending_h (es : List HostEvent) : (s.setPending es).h = s.h := rfl
@[simp] theorem State.setPending_m (es : List HostEvent) : (s.setPending es).m = s.m := rfl
@[simp] theorem State.setPending_w (es : List HostEvent) : (s.setPending es).w = s.w := rfl
@[simp] theorem State.setPending_cv (es : List HostEvent) : (s.setPending es).cv = s.cv := rfl
@[simp] theorem State.setPending_msgBaseLo (es : List HostEvent) : (s.setPending es).msgBaseLo = s.msgBaseLo := rfl
@[simp] theorem State.setPending_msgBaseHi (es : List HostEvent) : (s.setPending es).msgBaseHi = s.msgBaseHi := rfl
@[simp] theorem State.setPending_msgLenLo (es : List HostEvent) : (s.setPending es).msgLenLo = s.msgLenLo := rfl
@[simp] theorem State.setPending_msgLenHi (es : List HostEvent) : (s.setPending es).msgLenHi = s.msgLenHi := rfl
@[simp] theorem State.setPending_ctx (es : List HostEvent) : (s.setPending es).ctx = s.ctx := rfl
@[simp] theorem State.setPending_phase (es : List HostEvent) : (s.setPending es).phase = s.phase := rfl
@[simp] theorem State.setPending_fault (es : List HostEvent) : (s.setPending es).fault = s.fault := rfl
@[simp] theorem State.setPending_cause (es : List HostEvent) : (s.setPending es).cause = s.cause := rfl
@[simp] theorem State.setPending_finfo (es : List HostEvent) : (s.setPending es).finfo = s.finfo := rfl
@[simp] theorem State.setPending_eqFlag (es : List HostEvent) : (s.setPending es).eqFlag = s.eqFlag := rfl
@[simp] theorem State.setPending_mem (es : List HostEvent) : (s.setPending es).mem = s.mem := rfl
@[simp] theorem State.setPending_memLast (es : List HostEvent) : (s.setPending es).memLast = s.memLast := rfl
@[simp] theorem State.setPending_pending (es : List HostEvent) : (s.setPending es).pending = es := rfl
@[simp] theorem State.setPending_results (es : List HostEvent) : (s.setPending es).results = s.results := rfl
@[simp] theorem State.setPending_freeCount (es : List HostEvent) : (s.setPending es).freeCount = s.freeCount := rfl
@[simp] theorem State.setPending_memBytes (es : List HostEvent) : (s.setPending es).memBytes = s.memBytes := rfl

@[simp] theorem State.addResult_h (r : ReadResult) : (s.addResult r).h = s.h := rfl
@[simp] theorem State.addResult_m (r : ReadResult) : (s.addResult r).m = s.m := rfl
@[simp] theorem State.addResult_w (r : ReadResult) : (s.addResult r).w = s.w := rfl
@[simp] theorem State.addResult_cv (r : ReadResult) : (s.addResult r).cv = s.cv := rfl
@[simp] theorem State.addResult_msgBaseLo (r : ReadResult) : (s.addResult r).msgBaseLo = s.msgBaseLo := rfl
@[simp] theorem State.addResult_msgBaseHi (r : ReadResult) : (s.addResult r).msgBaseHi = s.msgBaseHi := rfl
@[simp] theorem State.addResult_msgLenLo (r : ReadResult) : (s.addResult r).msgLenLo = s.msgLenLo := rfl
@[simp] theorem State.addResult_msgLenHi (r : ReadResult) : (s.addResult r).msgLenHi = s.msgLenHi := rfl
@[simp] theorem State.addResult_ctx (r : ReadResult) : (s.addResult r).ctx = s.ctx := rfl
@[simp] theorem State.addResult_phase (r : ReadResult) : (s.addResult r).phase = s.phase := rfl
@[simp] theorem State.addResult_fault (r : ReadResult) : (s.addResult r).fault = s.fault := rfl
@[simp] theorem State.addResult_cause (r : ReadResult) : (s.addResult r).cause = s.cause := rfl
@[simp] theorem State.addResult_finfo (r : ReadResult) : (s.addResult r).finfo = s.finfo := rfl
@[simp] theorem State.addResult_eqFlag (r : ReadResult) : (s.addResult r).eqFlag = s.eqFlag := rfl
@[simp] theorem State.addResult_mem (r : ReadResult) : (s.addResult r).mem = s.mem := rfl
@[simp] theorem State.addResult_memLast (r : ReadResult) : (s.addResult r).memLast = s.memLast := rfl
@[simp] theorem State.addResult_pending (r : ReadResult) : (s.addResult r).pending = s.pending := rfl
@[simp] theorem State.addResult_results (r : ReadResult) : (s.addResult r).results = s.results ++ [r] := rfl
@[simp] theorem State.addResult_freeCount (r : ReadResult) : (s.addResult r).freeCount = s.freeCount := rfl
@[simp] theorem State.addResult_memBytes (r : ReadResult) : (s.addResult r).memBytes = s.memBytes := rfl

@[simp] theorem State.setFreeCount_h (n : Nat) : (s.setFreeCount n).h = s.h := rfl
@[simp] theorem State.setFreeCount_m (n : Nat) : (s.setFreeCount n).m = s.m := rfl
@[simp] theorem State.setFreeCount_w (n : Nat) : (s.setFreeCount n).w = s.w := rfl
@[simp] theorem State.setFreeCount_cv (n : Nat) : (s.setFreeCount n).cv = s.cv := rfl
@[simp] theorem State.setFreeCount_msgBaseLo (n : Nat) : (s.setFreeCount n).msgBaseLo = s.msgBaseLo := rfl
@[simp] theorem State.setFreeCount_msgBaseHi (n : Nat) : (s.setFreeCount n).msgBaseHi = s.msgBaseHi := rfl
@[simp] theorem State.setFreeCount_msgLenLo (n : Nat) : (s.setFreeCount n).msgLenLo = s.msgLenLo := rfl
@[simp] theorem State.setFreeCount_msgLenHi (n : Nat) : (s.setFreeCount n).msgLenHi = s.msgLenHi := rfl
@[simp] theorem State.setFreeCount_ctx (n : Nat) : (s.setFreeCount n).ctx = s.ctx := rfl
@[simp] theorem State.setFreeCount_phase (n : Nat) : (s.setFreeCount n).phase = s.phase := rfl
@[simp] theorem State.setFreeCount_fault (n : Nat) : (s.setFreeCount n).fault = s.fault := rfl
@[simp] theorem State.setFreeCount_cause (n : Nat) : (s.setFreeCount n).cause = s.cause := rfl
@[simp] theorem State.setFreeCount_finfo (n : Nat) : (s.setFreeCount n).finfo = s.finfo := rfl
@[simp] theorem State.setFreeCount_eqFlag (n : Nat) : (s.setFreeCount n).eqFlag = s.eqFlag := rfl
@[simp] theorem State.setFreeCount_mem (n : Nat) : (s.setFreeCount n).mem = s.mem := rfl
@[simp] theorem State.setFreeCount_memLast (n : Nat) : (s.setFreeCount n).memLast = s.memLast := rfl
@[simp] theorem State.setFreeCount_pending (n : Nat) : (s.setFreeCount n).pending = s.pending := rfl
@[simp] theorem State.setFreeCount_results (n : Nat) : (s.setFreeCount n).results = s.results := rfl
@[simp] theorem State.setFreeCount_freeCount (n : Nat) : (s.setFreeCount n).freeCount = n := rfl
@[simp] theorem State.setFreeCount_memBytes (n : Nat) : (s.setFreeCount n).memBytes = s.memBytes := rfl

@[simp] theorem State.applyReset_h : s.applyReset.h = State.reset.h := rfl
@[simp] theorem State.applyReset_m : s.applyReset.m = State.reset.m := rfl
@[simp] theorem State.applyReset_w : s.applyReset.w = State.reset.w := rfl
@[simp] theorem State.applyReset_cv : s.applyReset.cv = State.reset.cv := rfl
@[simp] theorem State.applyReset_msgBaseLo : s.applyReset.msgBaseLo = State.reset.msgBaseLo := rfl
@[simp] theorem State.applyReset_msgBaseHi : s.applyReset.msgBaseHi = State.reset.msgBaseHi := rfl
@[simp] theorem State.applyReset_msgLenLo : s.applyReset.msgLenLo = State.reset.msgLenLo := rfl
@[simp] theorem State.applyReset_msgLenHi : s.applyReset.msgLenHi = State.reset.msgLenHi := rfl
@[simp] theorem State.applyReset_ctx : s.applyReset.ctx = State.reset.ctx := rfl
@[simp] theorem State.applyReset_phase : s.applyReset.phase = State.reset.phase := rfl
@[simp] theorem State.applyReset_fault : s.applyReset.fault = State.reset.fault := rfl
@[simp] theorem State.applyReset_cause : s.applyReset.cause = State.reset.cause := rfl
@[simp] theorem State.applyReset_finfo : s.applyReset.finfo = State.reset.finfo := rfl
@[simp] theorem State.applyReset_eqFlag : s.applyReset.eqFlag = State.reset.eqFlag := rfl
@[simp] theorem State.applyReset_mem : s.applyReset.mem = s.mem := rfl
@[simp] theorem State.applyReset_memLast : s.applyReset.memLast = s.memLast := rfl
@[simp] theorem State.applyReset_pending : s.applyReset.pending = s.pending := rfl
@[simp] theorem State.applyReset_results : s.applyReset.results = s.results := rfl
@[simp] theorem State.applyReset_freeCount : s.applyReset.freeCount = s.freeCount := rfl
@[simp] theorem State.applyReset_memBytes : s.applyReset.memBytes = s.memBytes := rfl

/-! Fault entry writes the fault record only (R210). -/

variable (cause : Cause) (info : Word)

@[simp] theorem State.raise_h : (s.raise cause info).h = s.h := by
  unfold State.raise; split <;> rfl
@[simp] theorem State.raise_m : (s.raise cause info).m = s.m := by
  unfold State.raise; split <;> rfl
@[simp] theorem State.raise_w : (s.raise cause info).w = s.w := by
  unfold State.raise; split <;> rfl
@[simp] theorem State.raise_cv : (s.raise cause info).cv = s.cv := by
  unfold State.raise; split <;> rfl
@[simp] theorem State.raise_msgBaseLo : (s.raise cause info).msgBaseLo = s.msgBaseLo := by
  unfold State.raise; split <;> rfl
@[simp] theorem State.raise_msgBaseHi : (s.raise cause info).msgBaseHi = s.msgBaseHi := by
  unfold State.raise; split <;> rfl
@[simp] theorem State.raise_msgLenLo : (s.raise cause info).msgLenLo = s.msgLenLo := by
  unfold State.raise; split <;> rfl
@[simp] theorem State.raise_msgLenHi : (s.raise cause info).msgLenHi = s.msgLenHi := by
  unfold State.raise; split <;> rfl
@[simp] theorem State.raise_ctx : (s.raise cause info).ctx = s.ctx := by
  unfold State.raise; split <;> rfl
@[simp] theorem State.raise_phase : (s.raise cause info).phase = s.phase := by
  unfold State.raise; split <;> rfl
@[simp] theorem State.raise_eqFlag : (s.raise cause info).eqFlag = s.eqFlag := by
  unfold State.raise; split <;> rfl
@[simp] theorem State.raise_mem : (s.raise cause info).mem = s.mem := by
  unfold State.raise; split <;> rfl
@[simp] theorem State.raise_memLast : (s.raise cause info).memLast = s.memLast := by
  unfold State.raise; split <;> rfl
@[simp] theorem State.raise_pending : (s.raise cause info).pending = s.pending := by
  unfold State.raise; split <;> rfl
@[simp] theorem State.raise_results : (s.raise cause info).results = s.results := by
  unfold State.raise; split <;> rfl
@[simp] theorem State.raise_freeCount : (s.raise cause info).freeCount = s.freeCount := by
  unfold State.raise; split <;> rfl
@[simp] theorem State.raise_memBytes : (s.raise cause info).memBytes = s.memBytes := by
  unfold State.raise; split <;> rfl
@[simp] theorem State.raise_fault : (s.raise cause info).fault = true := by
  unfold State.raise; split <;> simp_all

/-- The first fault is recorded (R210). -/
theorem State.raise_of_clear (hf : s.fault = false) :
    s.raise cause info = { s with fault := true, cause := cause, finfo := info } := by
  simp [State.raise, hf]

/-- A later fault is not recorded (R212). -/
theorem State.raise_of_faulted (hf : s.fault = true) : s.raise cause info = s := by
  simp [State.raise, hf]

end Sys2Proof.Machine
end

