-- ==== Sys2Proof/Laws/Ops.lean ====
section
/-! SUPPORT. What the shared operations do: loops, register files that may hold ⊥, and the implicit operands. -/

namespace Sys2Proof.Machine

/-! ### Word primitives -/

/-- Bit `i` of the exclusive or of three words. -/
@[simp] theorem getLsbD_xor3 (x y z : Word) (i : Nat) :
    (xor3 x y z).getLsbD i = ((x.getLsbD i ^^ y.getLsbD i) ^^ z.getLsbD i) := by simp [xor3]

/-- The exclusive or of three words, taken apart over exclusive or. -/
theorem xor3_xor (x y z x' y' z' : Word) :
    xor3 (x ^^^ x') (y ^^^ y') (z ^^^ z') = xor3 x y z ^^^ xor3 x' y' z' := by
  ext i hi; simp [xor3]; grind

/-! ### Loops -/

@[simp] theorem forUp_zero {σ : Type} (body : Nat → σ → σ) (i : Nat) (s : σ) : forUp body 0 i s = s := rfl

theorem forUp_succ {σ : Type} (body : Nat → σ → σ) (n i : Nat) (s : σ) :
    forUp body (n + 1) i s = forUp body n (i + 1) (body i s) := rfl

/-- A loop in two parts. -/
theorem forUp_add {σ : Type} (body : Nat → σ → σ) (m n i : Nat) (s : σ) :
    forUp body (m + n) i s = forUp body n (i + m) (forUp body m i s) := by
  induction m generalizing i s with
  | zero => simp
  | succ m ih =>
    rw [show m + 1 + n = (m + n) + 1 by omega, forUp_succ, ih, forUp_succ, show i + 1 + m = i + (m + 1) by omega]

/-- The last turn of a loop. -/
theorem forUp_last {σ : Type} (body : Nat → σ → σ) (n i : Nat) (s : σ) :
    forUp body (n + 1) i s = body (i + n) (forUp body n i s) := by
  rw [forUp_add body n 1 i s]; rfl

/-- The invariant rule of a loop. -/
theorem forUp_induct {σ : Type} {body : Nat → σ → σ} {P : Nat → σ → Prop} {n i : Nat} {s : σ} (h0 : P i s)
    (hstep : ∀ k t, i ≤ k → k < i + n → P k t → P (k + 1) (body k t)) : P (i + n) (forUp body n i s) := by
  induction n with
  | zero => simpa using h0
  | succ n ih =>
    rw [forUp_last, ← Nat.add_assoc]
    exact hstep _ _ (by omega) (by omega) (ih fun k t hk hlt => hstep k t hk (by omega))

/-! ### Register files -/

@[simp] theorem mapWords_get {α β : Type} {n : Nat} (f : α → β) (v : Vector α n) (i : Nat) (h : i < n) :
    (mapWords f v)[i] = f v[i] := by
  simp [mapWords]

@[simp] theorem written_get {n : Nat} (v : Vector Word n) (i : Nat) (h : i < n) : (written v)[i] = some v[i] := by
  simp [written]

@[simp] theorem words_written {n : Nat} (v : Vector Word n) : words (written v) = v := by
  ext1 i h; simp [words, written]

@[simp] theorem words_get {n : Nat} (v : Vector (Option Word) n) (i : Nat) (h : i < n) :
    (words v)[i] = v[i].getD 0 := by simp [words]

/-- Element `i` of a register file, inside it. -/
theorem wordAt_eq {n : Nat} (v : Vector Word n) {i : Nat} (h : i < n) : wordAt v i = v[i] := by
  simp [wordAt, Vector.getD, h]

theorem lowestBot_eq_none {n : Nat} {v : Vector (Option Word) n} :
    lowestBot v = none ↔ ∀ i (h : i < n), v[i] ≠ none := by
  simp only [lowestBot, List.findIdx?_eq_none_iff]
  constructor
  · intro hv i h
    have := hv v[i] (by simp)
    grind
  · intro hv x hx
    obtain ⟨i, h, rfl⟩ := Vector.mem_iff_getElem.1 (Vector.mem_toList_iff.1 hx)
    have := hv i h
    cases hi : v[i] <;> simp_all

theorem lowestBot_eq_some {n : Nat} {v : Vector (Option Word) n} {i : Nat} (h : i < n) :
    lowestBot v = some i ↔ v[i] = none ∧ ∀ j (hj : j < i), v[j] ≠ none := by
  simp only [lowestBot, List.findIdx?_eq_some_iff_getElem]
  simp [h]

/-- The index found lies inside the register file. -/
theorem lowestBot_lt {n : Nat} {v : Vector (Option Word) n} {i : Nat} (h : lowestBot v = some i) : i < n := by
  simp only [lowestBot, List.findIdx?_eq_some_iff_getElem] at h
  obtain ⟨hi, -⟩ := h
  simpa using hi

@[simp] theorem lowestBot_written {n : Nat} (v : Vector Word n) : lowestBot (written v) = none := by
  simp [lowestBot_eq_none]

/-- A register file that holds only words is those words. -/
theorem written_words {n : Nat} {v : Vector (Option Word) n} (h : lowestBot v = none) : written (words v) = v := by
  ext1 i hi
  have := lowestBot_eq_none.1 h i hi
  rw [written_get, words_get]
  cases hv : v[i] <;> simp_all

/-! ### Implicit operands -/

theorem State.block_written {s : State} {b : Vector Word 16} (h : s.m = written b) : s.block = .ok b := by
  simp [State.block, h]

theorem State.hash_written {s : State} {hs : Vector Word 8} (h : s.h = written hs) : s.hash = .ok hs := by
  simp [State.hash, h]

theorem State.compareValue_written {s : State} {cv : Vector Word 8} (h : s.cv = written cv) :
    s.compareValue = .ok cv := by
  simp [State.compareValue, h]

/-- The operands that are a whole register file: either the lowest ⊥ or the words. -/
theorem State.block_cases (s : State) :
    (∃ i, lowestBot s.m = some i ∧ s.block = .error (elementOffset 0x0C0 i)) ∨
      (lowestBot s.m = none ∧ s.block = .ok (words s.m)) := by
  unfold State.block; cases lowestBot s.m <;> simp

theorem State.hash_cases (s : State) :
    (∃ j, lowestBot s.h = some j ∧ s.hash = .error (elementOffset 0x080 j)) ∨
      (lowestBot s.h = none ∧ s.hash = .ok (words s.h)) := by
  unfold State.hash; cases lowestBot s.h <;> simp

theorem State.compareValue_cases (s : State) :
    (∃ j, lowestBot s.cv = some j ∧ s.compareValue = .error (elementOffset 0x0A0 j)) ∨
      (lowestBot s.cv = none ∧ s.compareValue = .ok (words s.cv)) := by
  unfold State.compareValue; cases lowestBot s.cv <;> simp

/-- The two halves of a 64-bit value join to it. -/
theorem joinWords_halves (x : DWord) : joinWords (x.extractLsb' 32 32) (x.extractLsb' 0 32) = x := by
  unfold joinWords
  ext i hi
  simp only [BitVec.getElem_append, BitVec.getElem_extractLsb']
  split
  · simp [BitVec.getLsbD_eq_getElem hi]
  · rename_i h
    have : 32 + (i - 32) = i := by omega
    simp [this, BitVec.getLsbD_eq_getElem hi]

end Sys2Proof.Machine
end

