-- ==== Sys2Proof/Laws/Commands.lean ====
section
/-! SUPPORT. What the writes of each command do to each field, and what each command can answer: one inversion lemma
per command, which later proofs cite instead of unfolding its meaning. -/

namespace Sys2Proof.Machine

/-! ### Fault entry -/

/-- Fault entry does not touch the message memory (R210). -/
@[simp] theorem State.raise_setMem (s : State) (mem : Memory) (cause : Cause) (info : Word) :
    (s.setMem mem).raise cause info = (s.raise cause info).setMem mem := by
  cases h : s.fault with
  | true => rw [State.raise_of_faulted _ _ _ h, State.raise_of_faulted _ _ _ (by simpa using h)]
  | false => rw [State.raise_of_clear _ _ _ h, State.raise_of_clear _ _ _ (by simpa using h)]; rfl

/-! ### The filler -/

@[simp] theorem fill_consumed (mem : Memory) (cur rem : Nat) (tbits : DWord) :
    (fill mem cur rem tbits).consumed = consumedBytes rem := by
  simp [fill]

theorem consumedBytes_le (rem : Nat) : consumedBytes rem ≤ 64 := by unfold consumedBytes; omega

theorem consumedBytes_le_rem (rem : Nat) : consumedBytes rem ≤ rem := by unfold consumedBytes; omega

/-! ### The writes of the commands, field by field -/

section Fields

variable (s : State)

@[simp] theorem State.startHash_h : s.startHash.h = written IV := rfl
@[simp] theorem State.startHash_m : s.startHash.m = s.m := rfl
@[simp] theorem State.startHash_w : s.startHash.w = s.w := rfl
@[simp] theorem State.startHash_cv : s.startHash.cv = s.cv := rfl
@[simp] theorem State.startHash_msgBaseLo : s.startHash.msgBaseLo = s.msgBaseLo := rfl
@[simp] theorem State.startHash_msgBaseHi : s.startHash.msgBaseHi = s.msgBaseHi := rfl
@[simp] theorem State.startHash_msgLenLo : s.startHash.msgLenLo = s.msgLenLo := rfl
@[simp] theorem State.startHash_msgLenHi : s.startHash.msgLenHi = s.msgLenHi := rfl
@[simp] theorem State.startHash_ctx : s.startHash.ctx = s.ctx := rfl
@[simp] theorem State.startHash_phase : s.startHash.phase = .initialized := rfl
@[simp] theorem State.startHash_fault : s.startHash.fault = s.fault := rfl
@[simp] theorem State.startHash_cause : s.startHash.cause = s.cause := rfl
@[simp] theorem State.startHash_finfo : s.startHash.finfo = s.finfo := rfl
@[simp] theorem State.startHash_eqFlag : s.startHash.eqFlag = s.eqFlag := rfl
@[simp] theorem State.startHash_mem : s.startHash.mem = s.mem := rfl
@[simp] theorem State.startHash_memLast : s.startHash.memLast = s.memLast := rfl
@[simp] theorem State.startHash_memBytes : s.startHash.memBytes = s.memBytes := rfl
@[simp] theorem State.startHash_pending : s.startHash.pending = s.pending := rfl
@[simp] theorem State.startHash_results : s.startHash.results = s.results := rfl
@[simp] theorem State.startHash_freeCount : s.startHash.freeCount = s.freeCount := rfl

variable (hs : Vector Word 8) (b : Vector Word 16)

@[simp] theorem State.foldBlock_h : (s.foldBlock hs b).h = written (compress hs b).hash := rfl
@[simp] theorem State.foldBlock_w : (s.foldBlock hs b).w = written (compress hs b).sched := rfl
@[simp] theorem State.foldBlock_phase : (s.foldBlock hs b).phase = .updated := rfl
@[simp] theorem State.foldBlock_m : (s.foldBlock hs b).m = s.m := rfl
@[simp] theorem State.foldBlock_cv : (s.foldBlock hs b).cv = s.cv := rfl
@[simp] theorem State.foldBlock_msgBaseLo : (s.foldBlock hs b).msgBaseLo = s.msgBaseLo := rfl
@[simp] theorem State.foldBlock_msgBaseHi : (s.foldBlock hs b).msgBaseHi = s.msgBaseHi := rfl
@[simp] theorem State.foldBlock_msgLenLo : (s.foldBlock hs b).msgLenLo = s.msgLenLo := rfl
@[simp] theorem State.foldBlock_msgLenHi : (s.foldBlock hs b).msgLenHi = s.msgLenHi := rfl
@[simp] theorem State.foldBlock_ctx : (s.foldBlock hs b).ctx = s.ctx := rfl
@[simp] theorem State.foldBlock_fault : (s.foldBlock hs b).fault = s.fault := rfl
@[simp] theorem State.foldBlock_cause : (s.foldBlock hs b).cause = s.cause := rfl
@[simp] theorem State.foldBlock_finfo : (s.foldBlock hs b).finfo = s.finfo := rfl
@[simp] theorem State.foldBlock_eqFlag : (s.foldBlock hs b).eqFlag = s.eqFlag := rfl
@[simp] theorem State.foldBlock_mem : (s.foldBlock hs b).mem = s.mem := rfl
@[simp] theorem State.foldBlock_memLast : (s.foldBlock hs b).memLast = s.memLast := rfl
@[simp] theorem State.foldBlock_memBytes : (s.foldBlock hs b).memBytes = s.memBytes := rfl
@[simp] theorem State.foldBlock_pending : (s.foldBlock hs b).pending = s.pending := rfl
@[simp] theorem State.foldBlock_results : (s.foldBlock hs b).results = s.results := rfl
@[simp] theorem State.foldBlock_freeCount : (s.foldBlock hs b).freeCount = s.freeCount := rfl

variable (x : Ctx)

@[simp] theorem State.materialise_m :
    (s.materialise x).m = written (fill s.mem x.cur.toNat x.rem.toNat x.tbits).block := rfl
@[simp] theorem State.materialise_ctx : (s.materialise x).ctx =
    some (x.advance (consumedBytes x.rem.toNat) (Config.curPastTop s.freeCount)) := by
  simp [State.materialise]
@[simp] theorem State.materialise_freeCount :
    (s.materialise x).freeCount = s.freeCount + x.freeTaken (consumedBytes x.rem.toNat) := by
  simp [State.materialise]
@[simp] theorem State.materialise_h : (s.materialise x).h = s.h := rfl
@[simp] theorem State.materialise_w : (s.materialise x).w = s.w := rfl
@[simp] theorem State.materialise_cv : (s.materialise x).cv = s.cv := rfl
@[simp] theorem State.materialise_msgBaseLo : (s.materialise x).msgBaseLo = s.msgBaseLo := rfl
@[simp] theorem State.materialise_msgBaseHi : (s.materialise x).msgBaseHi = s.msgBaseHi := rfl
@[simp] theorem State.materialise_msgLenLo : (s.materialise x).msgLenLo = s.msgLenLo := rfl
@[simp] theorem State.materialise_msgLenHi : (s.materialise x).msgLenHi = s.msgLenHi := rfl
@[simp] theorem State.materialise_phase : (s.materialise x).phase = s.phase := rfl
@[simp] theorem State.materialise_fault : (s.materialise x).fault = s.fault := rfl
@[simp] theorem State.materialise_cause : (s.materialise x).cause = s.cause := rfl
@[simp] theorem State.materialise_finfo : (s.materialise x).finfo = s.finfo := rfl
@[simp] theorem State.materialise_eqFlag : (s.materialise x).eqFlag = s.eqFlag := rfl
@[simp] theorem State.materialise_mem : (s.materialise x).mem = s.mem := rfl
@[simp] theorem State.materialise_memLast : (s.materialise x).memLast = s.memLast := rfl
@[simp] theorem State.materialise_memBytes : (s.materialise x).memBytes = s.memBytes := rfl
@[simp] theorem State.materialise_pending : (s.materialise x).pending = s.pending := rfl
@[simp] theorem State.materialise_results : (s.materialise x).results = s.results := rfl

end Fields

/-! ### The starting context -/

/-- The context that `Ctx.start` gives, as numbers, for a length that LOAD accepts. -/
theorem Ctx.start_tbits {base len : DWord} (h : len.toNat ≤ maxLen) :
    (Ctx.start base len).tbits.toNat = 8 * len.toNat := by
  simp only [Ctx.start, BitVec.toNat_ofNat, maxLen] at *
  omega

theorem Ctx.start_nblk {base len : DWord} (h : len.toNat ≤ maxLen) :
    (Ctx.start base len).nblk.toNat = nBlocks len.toNat := by
  simp only [Ctx.start, nBlocks, BitVec.toNat_ofNat, maxLen] at *
  omega

/-! ### LoadCtx -/

/-- `LoadCtx` gives a context exactly for a written descriptor whose length and range it accepts (R172). -/
theorem loadCtx_ok {cw : Word} {s : State} {x : Ctx} :
    loadCtx cw s = .ok x ↔ ∃ base len, s.descriptor = .ok (base, len) ∧ len.toNat ≤ maxLen
      ∧ base.toNat + len.toNat ≤ s.memBytes ∧ x = Ctx.start base len := by
  unfold loadCtx
  cases hd : s.descriptor with
  | error off => simp
  | ok p =>
    obtain ⟨base, len⟩ := p
    simp only [Except.ok.injEq, Prod.mk.injEq]
    by_cases h1 : maxLen < len.toNat
    · rw [if_pos h1]
      simp only [reduceCtorEq, false_iff]
      rintro ⟨_, _, ⟨rfl, rfl⟩, h, -⟩
      omega
    · rw [if_neg h1]
      by_cases h2 : s.memBytes < base.toNat + len.toNat
      · rw [if_pos h2]
        simp only [reduceCtorEq, false_iff]
        rintro ⟨_, _, ⟨rfl, rfl⟩, -, h, -⟩
        omega
      · rw [if_neg h2]
        constructor
        · intro h
          cases h
          exact ⟨base, len, ⟨rfl, rfl⟩, by omega, by omega, rfl⟩
        · rintro ⟨_, _, ⟨rfl, rfl⟩, -, -, rfl⟩
          rfl

/-- Whether `LoadCtx` gives a context does not depend on the command word (R172). -/
theorem loadCtx_ok_congr {cw cw' : Word} {s : State} {x : Ctx} (h : loadCtx cw s = .ok x) :
    loadCtx cw' s = .ok x := loadCtx_ok.2 (loadCtx_ok.1 h)

/-- The causes that `LoadCtx` raises, none of them code 0 (R172). -/
theorem loadCtx_error {cw : Word} {s : State} {cause : Cause} {info : Word}
    (h : loadCtx cw s = .error (cause, info)) :
    cause = .uninitRead ∨ (cause = .length ∧ info = cw) ∨ (cause = .range ∧ info = cw) := by
  unfold loadCtx at h
  split at h
  · simp_all
  · split at h
    · simp_all
    · split at h <;> simp_all

/-! ### What each command can answer -/

theorem execInit_eq (s : State) : exec .init s = .next s.startHash := rfl

theorem execLoad_cases (s : State) :
    (∃ x, loadCtx 0x00000002 s = .ok x ∧ exec .load s = .next (s.setCtx x)) ∨
      ∃ cause info, loadCtx 0x00000002 s = .error (cause, info) ∧ exec .load s = .next (s.raise cause info) := by
  rcases h : loadCtx 0x00000002 s with ⟨cause, info⟩ | x
  · exact .inr ⟨cause, info, rfl, by simp only [exec, execLoad, h]⟩
  · exact .inl ⟨x, rfl, by simp only [exec, execLoad, h]⟩

theorem execDigest_cases (s : State) :
    (∃ x, loadCtx 0x00000006 s = .ok x ∧ exec .digest s = .next (s.digestMessage x)) ∨
      ∃ cause info, loadCtx 0x00000006 s = .error (cause, info) ∧ exec .digest s = .next (s.raise cause info) := by
  rcases h : loadCtx 0x00000006 s with ⟨cause, info⟩ | x
  · exact .inr ⟨cause, info, rfl, by simp only [exec, execDigest, h]⟩
  · exact .inl ⟨x, rfl, by simp only [exec, execDigest, h]⟩

theorem execFill_cases (s : State) :
    (s.ctx = none ∧ exec .fill s = .next (s.raise .uninitRead 0x020)) ∨
      ∃ x, s.ctx = some x ∧
        ((x.bcnt = x.nblk ∧ exec .fill s = .next (s.raise .overrun 0x00000003)) ∨
          (x.bcnt ≠ x.nblk ∧ readsOutside x s = true ∧
            exec .fill s = .fault (.noSuchAddress (max x.cur.toNat s.memBytes))) ∨
          (x.bcnt ≠ x.nblk ∧ readsOutside x s = false ∧ exec .fill s = .next (s.materialise x))) := by
  rcases h : s.ctx with _ | x
  · exact .inl ⟨rfl, by simp [exec, execFill, h]⟩
  · refine .inr ⟨x, rfl, ?_⟩
    by_cases hb : x.bcnt = x.nblk
    · exact .inl ⟨hb, by simp [exec, execFill, h, hb]⟩
    · cases ho : readsOutside x s
      · exact .inr (.inr ⟨hb, rfl, by simp [exec, execFill, h, hb, ho]⟩)
      · exact .inr (.inl ⟨hb, rfl, by simp [exec, execFill, h, hb, ho]⟩)

theorem execSched_cases (s : State) :
    (∃ i, lowestBot s.m = some i ∧ exec .sched s = .next (s.raise .uninitRead (elementOffset 0x0C0 i))) ∨
      (lowestBot s.m = none ∧ exec .sched s = .next (s.setW (schedule (words s.m)))) := by
  rcases s.block_cases with ⟨i, hi, hb⟩ | ⟨hi, hb⟩
  · exact .inl ⟨i, hi, by simp [exec, execSched, hb]⟩
  · exact .inr ⟨hi, by simp [exec, execSched, hb]⟩

theorem State.compressM_cases (s : State) :
    (∃ i, lowestBot s.m = some i ∧ s.compressM = s.raise .uninitRead (elementOffset 0x0C0 i)) ∨
      (lowestBot s.m = none ∧ ∃ j, lowestBot s.h = some j ∧
        s.compressM = s.raise .uninitRead (elementOffset 0x080 j)) ∨
      (lowestBot s.m = none ∧ lowestBot s.h = none ∧ s.compressM = s.foldBlock (words s.h) (words s.m)) := by
  rcases s.block_cases with ⟨i, hi, hb⟩ | ⟨hi, hb⟩
  · exact .inl ⟨i, hi, by simp [State.compressM, hb]⟩
  · rcases s.hash_cases with ⟨j, hj, hh⟩ | ⟨hj, hh⟩
    · exact .inr (.inl ⟨hi, j, hj, by simp [State.compressM, hb, hh]⟩)
    · exact .inr (.inr ⟨hi, hj, by simp [State.compressM, hb, hh]⟩)

theorem execCompress_cases (s : State) :
    (s.phase = .uninit ∧ exec .compress s = .next (s.raise .uninitRead 0x080)) ∨
      (s.phase = .final ∧ exec .compress s = .next (s.raise .finalized 0x00000005)) ∨
      ((s.phase = .initialized ∨ s.phase = .updated) ∧ exec .compress s = .next s.compressM) := by
  rcases h : s.phase with _ | _ | _ | _ <;> simp [exec, execCompress, h]

theorem State.compareCv_cases (s : State) :
    (∃ j, lowestBot s.cv = some j ∧ s.compareCv = s.raise .uninitRead (elementOffset 0x0A0 j)) ∨
      (lowestBot s.cv = none ∧ ∃ j, lowestBot s.h = some j ∧
        s.compareCv = s.raise .uninitRead (elementOffset 0x080 j)) ∨
      (lowestBot s.cv = none ∧ lowestBot s.h = none ∧
        s.compareCv = s.setEq (hashesEqual (words s.h) (words s.cv))) := by
  rcases s.compareValue_cases with ⟨i, hi, hb⟩ | ⟨hi, hb⟩
  · exact .inl ⟨i, hi, by simp [State.compareCv, hb]⟩
  · rcases s.hash_cases with ⟨j, hj, hh⟩ | ⟨hj, hh⟩
    · exact .inr (.inl ⟨hi, j, hj, by simp [State.compareCv, hb, hh]⟩)
    · exact .inr (.inr ⟨hi, hj, by simp [State.compareCv, hb, hh]⟩)

theorem execCmp_cases (s : State) :
    (s.phase = .uninit ∧ exec .cmp s = .next (s.raise .uninitRead 0x080)) ∨
      (s.phase ≠ .uninit ∧ exec .cmp s = .next s.compareCv) := by
  rcases h : s.phase with _ | _ | _ | _ <;> simp [exec, execCmp, h]

@[simp] theorem hashesEqual_iff (a b : Vector Word 8) : hashesEqual a b = true ↔ a = b := by
  simp only [hashesEqual, decide_eq_true_eq]
  exact ⟨fun h => by ext1 i hi; exact h ⟨i, hi⟩, fun h _ => by rw [h]⟩

/-! ### The block loop of DIGEST -/

/-- What one turn of the loop keeps, whatever the context. -/
theorem State.digestBlock_keeps (s : State) :
    s.digestBlock.cv = s.cv ∧ s.digestBlock.msgBaseLo = s.msgBaseLo ∧ s.digestBlock.msgBaseHi = s.msgBaseHi
      ∧ s.digestBlock.msgLenLo = s.msgLenLo ∧ s.digestBlock.msgLenHi = s.msgLenHi ∧ s.digestBlock.fault = s.fault
      ∧ s.digestBlock.cause = s.cause ∧ s.digestBlock.finfo = s.finfo ∧ s.digestBlock.eqFlag = s.eqFlag
      ∧ s.digestBlock.mem = s.mem ∧ s.digestBlock.memLast = s.memLast ∧ s.digestBlock.pending = s.pending
      ∧ s.digestBlock.results = s.results := by
  unfold State.digestBlock
  cases s.ctx <;> simp

/-- The invariant rule of the block loop. -/
theorem State.digestBlocks_induct {P : State → Prop} {n : Nat} {s : State} (h0 : P s)
    (hstep : ∀ t, P t → P t.digestBlock) : P (State.digestBlocks n s) := by
  induction n generalizing s with
  | zero => exact h0
  | succ n ih => exact ih (hstep s h0)

/-- What DIGEST keeps once it has a context (R174). -/
theorem State.digestMessage_keeps (s : State) (x : Ctx) :
    (s.digestMessage x).cv = s.cv ∧ (s.digestMessage x).msgBaseLo = s.msgBaseLo
      ∧ (s.digestMessage x).msgBaseHi = s.msgBaseHi ∧ (s.digestMessage x).msgLenLo = s.msgLenLo
      ∧ (s.digestMessage x).msgLenHi = s.msgLenHi ∧ (s.digestMessage x).fault = s.fault
      ∧ (s.digestMessage x).cause = s.cause ∧ (s.digestMessage x).finfo = s.finfo
      ∧ (s.digestMessage x).eqFlag = s.eqFlag ∧ (s.digestMessage x).mem = s.mem
      ∧ (s.digestMessage x).memLast = s.memLast ∧ (s.digestMessage x).pending = s.pending
      ∧ (s.digestMessage x).results = s.results := by
  simp only [State.digestMessage, State.setPhase_cv, State.setPhase_msgBaseLo, State.setPhase_msgBaseHi,
    State.setPhase_msgLenLo, State.setPhase_msgLenHi, State.setPhase_fault, State.setPhase_cause,
    State.setPhase_finfo, State.setPhase_eqFlag, State.setPhase_mem, State.setPhase_memLast,
    State.setPhase_pending, State.setPhase_results]
  refine State.digestBlocks_induct (P := fun t => t.cv = s.cv ∧ t.msgBaseLo = s.msgBaseLo
      ∧ t.msgBaseHi = s.msgBaseHi ∧ t.msgLenLo = s.msgLenLo ∧ t.msgLenHi = s.msgLenHi ∧ t.fault = s.fault
      ∧ t.cause = s.cause ∧ t.finfo = s.finfo ∧ t.eqFlag = s.eqFlag ∧ t.mem = s.mem ∧ t.memLast = s.memLast
      ∧ t.pending = s.pending ∧ t.results = s.results) (by simp) fun t ht => ?_
  have := t.digestBlock_keeps
  grind

end Sys2Proof.Machine
end

