-- ==== Sys2Proof/Machine/Platform.lean ====
section
/-! DEFINITION. A platform of several instances (R39, R220). Each instance is a State of its own; which instance acts
next is an input, so every interleaving of R71 is a list of instance numbers. -/

namespace Sys2Proof.Machine

/-- `P_INSTANCES` instances (R9, R220). Whether they share one message memory is the platform's choice (R50). -/
structure Platform where
  insts : List State
  sharedMem : Bool
deriving DecidableEq, Repr

/-- A platform has at least one instance (R220). -/
def Platform.wf (p : Platform) : Bool := !p.insts.isEmpty

/-- Every instance leaves reset on its own in `UNINIT` (R220). -/
def Platform.reset (n : Nat) (shared : Bool) : Platform := { insts := List.replicate n State.reset, sharedMem := shared }

/-- What another instance sees of a step: nothing but the message memory, and that only where it is shared (R71). -/
def Platform.seenBy (p : Platform) (acted other : State) : State :=
  if p.sharedMem then other.setMem acted.mem else other

/-- Instance `k` takes its next host event; the host tells instances apart by their windows (R220). -/
def Platform.step (k : Nat) (p : Platform) : Host.Outcome Platform Fault Refusal :=
  match p.insts[k]? with
  | none => .fault (.noSuchInstance k)
  | some s =>
    match Machine.step s with
    | .next t => .next { p with insts := (p.insts.map (p.seenBy t)).set k t }
    | .fault e => .fault e
    | .refused e => .refused e

/-- The instances act in the order given. -/
def Platform.run : List Nat → Platform → Host.Outcome Platform Fault Refusal
  | [], p => .next p
  | k :: ks, p =>
    match Platform.step k p with
    | .next q => Platform.run ks q
    | .fault e => .fault e
    | .refused e => .refused e

end Sys2Proof.Machine
end

