-- ==== Sys2Proof/Machine/Program.lean ====
section
/-! DEFINITION. The host's side of the command stream in the spec's own notation: the statements of R88, the
pseudo-instructions of R89, their expansion into transactions, and the written form of a transaction (R87). -/

namespace Sys2Proof.Machine

/-- What a read is expected to return; it is no part of the transaction (R88). -/
inductive Expect where
  | nothing
  | value (v : Word)
  | noData
deriving DecidableEq, Repr

/-- A statement of R88 or a pseudo-instruction of R89. -/
inductive Stmt where
  /-- A command mnemonic. -/
  | command (i : Instr)
  /-- `WR <reg>, <value>`. -/
  | wr (r : Reg) (v : Word)
  /-- `RD <reg>`, `RD <reg> = <value>`, `RD <reg> = no data`. -/
  | rd (r : Reg) (expect : Expect)
  /-- `W <off> <data>`, `R <off>`. -/
  | raw (a : Access)
  /-- `SETMSG <base>, <len>`. -/
  | setmsg (base len : DWord)
  /-- `HASH <base>, <len>`. -/
  | hash (base len : DWord)
  /-- `BLOCK`. -/
  | block
  /-- `WRBLK <w0>, ..., <w15>`, with fewer operands too. -/
  | wrblk (ws : List Word)
  /-- `WRCV <v0>, ..., <v7>`, with fewer operands too. -/
  | wrcv (vs : List Word)
  /-- `RDH`. -/
  | rdh
  /-- `RDSTATUS`, `RDSTATUS = <value>`. -/
  | rdstatus (expect : Expect)
deriving DecidableEq, Repr

/-- A statement is well-formed when `WRBLK` has at most 16 operands, `WRCV` at most 8, and `RDSTATUS` expects no "no
data" (R89). -/
def Stmt.wf : Stmt → Bool
  | .wrblk ws => decide (ws.length ≤ 16)
  | .wrcv vs => decide (vs.length ≤ 8)
  | .rdstatus e => e != .noData
  | .command _ | .wr _ _ | .rd _ _ | .raw _ | .setmsg _ _ | .hash _ _ | .block | .rdh => true

/-- `WR <reg>, <value>` as a transaction (R88). -/
def writeReg (r : Reg) (v : Word) : Access := .write r.offset v

/-- `RD <reg>` as a transaction (R88). -/
def readReg (r : Reg) : Access := .read r.offset

/-- A command mnemonic as a transaction: a write of its word to `CMD` (R88). -/
def issue (i : Instr) : Access := writeReg .cmd (encode i)

/-- Writes of consecutive words from a first offset, in index order (R89). -/
def writesFrom (off : BitVec 12) : List Word → List Access
  | [] => []
  | v :: vs => .write off v :: writesFrom (off + 4) vs

/-- The expansion of `SETMSG` (R89). -/
def setmsgAccesses (base len : DWord) : List Access :=
  [writeReg .msgBaseLo (base.extractLsb' 0 32), writeReg .msgBaseHi (base.extractLsb' 32 32),
    writeReg .msgLenLo (len.extractLsb' 0 32), writeReg .msgLenHi (len.extractLsb' 32 32)]

/-- The transactions of a statement (R88, R89). -/
def Stmt.expand : Stmt → List Access
  | .command i => [issue i]
  | .wr r v => [writeReg r v]
  | .rd r _ => [readReg r]
  | .raw a => [a]
  | .setmsg base len => setmsgAccesses base len
  | .hash base len => setmsgAccesses base len ++ [issue .digest]
  | .block => [issue .fill, issue .compress]
  | .wrblk ws => writesFrom (Reg.m 0).offset ws
  | .wrcv vs => writesFrom (Reg.cv 0).offset vs
  | .rdh => [readReg (.h 0), readReg (.h 1), readReg (.h 2), readReg (.h 3), readReg (.h 4), readReg (.h 5),
      readReg (.h 6), readReg (.h 7)]
  | .rdstatus _ => [readReg .status]

/-- The transactions of a list of statements, in the host's order (R87). -/
def expandAll (p : List Stmt) : List Access := p.flatMap Stmt.expand

/-- The hexadecimal digits, as offsets are written in the programs of spec/95_test_vectors.md. -/
def upperDigits : List Char := ['0', '1', '2', '3', '4', '5', '6', '7', '8', '9', 'A', 'B', 'C', 'D', 'E', 'F']

/-- The hexadecimal digits, as data words are written in the programs of spec/95_test_vectors.md. -/
def lowerDigits : List Char := ['0', '1', '2', '3', '4', '5', '6', '7', '8', '9', 'a', 'b', 'c', 'd', 'e', 'f']

/-- The low `width` hexadecimal digits of a number, the most significant first. -/
def hexText (digits : List Char) : Nat → Nat → List Char
  | 0, _ => []
  | width + 1, n => hexText digits width (n / 16) ++ [digits.getD (n % 16) '0']

/-- The written form of a transaction: `W <off> <data>` or `R <off>` (R87). -/
def Access.text : Access → List Char
  | .write off v => 'W' :: ' ' :: hexText upperDigits 3 off.toNat ++ ' ' :: hexText lowerDigits 8 v.toNat
  | .read off => 'R' :: ' ' :: hexText upperDigits 3 off.toNat

end Sys2Proof.Machine
end

