-- ==== Sys2Proof/Machine/Unrolled.lean ====
section
/-! DEFINITION. The eight-iteration form of the compression that R139 describes: eight rounds in which the variables
change roles in place of moving. The core does not expose it (R139); it stands here so that its equivalence with the
loop of R137 can be stated. How the eight rounds name their variables is this model's reading
(notes/assumptions/14.md). -/

namespace Sys2Proof.Machine

/-- One round without moving the variables: the new `e` stands where `d` stood and the new `a` where `h` stood. The
result is that pair. -/
def roundInPlace (wt : Vector Word 64) (i : Nat) (a b c d e f g h : Word) : Word × Word :=
  let t1 := temp1 wt i e f g h
  (d + t1, t1 + temp2 a b c)

/-- Eight rounds from round `i`, each with the roles shifted by one place. -/
def eightRounds (wt : Vector Word 64) (i : Nat) (v : Working) : Working :=
  let r0 := roundInPlace wt i v.a v.b v.c v.d v.e v.f v.g v.h
  let r1 := roundInPlace wt (i + 1) r0.2 v.a v.b v.c r0.1 v.e v.f v.g
  let r2 := roundInPlace wt (i + 2) r1.2 r0.2 v.a v.b r1.1 r0.1 v.e v.f
  let r3 := roundInPlace wt (i + 3) r2.2 r1.2 r0.2 v.a r2.1 r1.1 r0.1 v.e
  let r4 := roundInPlace wt (i + 4) r3.2 r2.2 r1.2 r0.2 r3.1 r2.1 r1.1 r0.1
  let r5 := roundInPlace wt (i + 5) r4.2 r3.2 r2.2 r1.2 r4.1 r3.1 r2.1 r1.1
  let r6 := roundInPlace wt (i + 6) r5.2 r4.2 r3.2 r2.2 r5.1 r4.1 r3.1 r2.1
  let r7 := roundInPlace wt (i + 7) r6.2 r5.2 r4.2 r3.2 r6.1 r5.1 r4.1 r3.1
  { a := r7.2, b := r6.2, c := r5.2, d := r4.2, e := r7.1, f := r6.1, g := r5.1, h := r4.1 }

/-- The compression by eight iterations of eight rounds (R139: `64 = 8 · 8`). -/
def compressUnrolled (hs : Vector Word 8) (b : Vector Word 16) : Compressed :=
  let wt := schedule b
  { hash := feedForward hs (forUp (fun n v => eightRounds wt (8 * n) v) 8 0 (Working.ofHash hs)), sched := wt }

end Sys2Proof.Machine
end

