-- ==== Sys2Proof/Safety.lean ====
section
/-! DEFINITION. The terms that statements use: what a safe run is, the invariant of the machine, what a command leaves
unchanged, and command sequences. -/

namespace Sys2Proof.Machine

/-- A run ends well only with `FAULT = 0` (R212, R234). -/
def State.safe (s : State) : Prop := s.fault = false

/-- The invariants of R27 while `CTX ≠ ⊥`, for the message length `tbits / 8`: the remaining count, the block count
and the last count are those of `bcnt` FILLs, and the bytes still to read lie inside the message memory. -/
structure Ctx.Agrees (x : Ctx) (memBytes : Nat) : Prop where
  whole_bytes : x.tbits.toNat % 8 = 0
  nblk_eq : x.nblk.toNat = nBlocks (x.tbits.toNat / 8)
  bcnt_le : x.bcnt.toNat ≤ x.nblk.toNat
  rem_eq : x.rem.toNat = x.tbits.toNat / 8 - 64 * x.bcnt.toNat
  inside : x.cur.toNat + x.rem.toNat ≤ memBytes
  lastc_eq : x.lastc.toNat =
    if x.bcnt.toNat = 0 then 0 else min 64 (x.tbits.toNat / 8 - 64 * (x.bcnt.toNat - 1))

/-- The invariant of one instance: the memory is canonical and lists only addresses that exist; `H` is ⊥ exactly in
`UNINIT` (R28); `W` is ⊥ or written as a whole (R24); the context agrees (R27); the fault record is clear exactly
while `FAULT = 0` (R31). -/
structure State.Inv (s : State) : Prop where
  mem_wf : s.mem.wf
  mem_inside : ∀ c ∈ s.mem, c.1 < s.memBytes
  h_bot : s.phase = .uninit → ∀ j : Fin 8, s.h[j] = none
  h_word : s.phase ≠ .uninit → ∀ j : Fin 8, s.h[j] ≠ none
  w_whole : (∀ i : Fin 64, s.w[i] = none) ∨ ∀ i : Fin 64, s.w[i] ≠ none
  ctx_agrees : ∀ x, s.ctx = some x → x.Agrees s.memBytes
  record_clear : s.fault = false → s.cause = .noFault ∧ s.finfo = 0
  record_set : s.fault = true → s.cause ≠ .noFault

/-- The message descriptor is the same. -/
def sameDescriptor (s t : State) : Prop :=
  t.msgBaseLo = s.msgBaseLo ∧ t.msgBaseHi = s.msgBaseHi ∧ t.msgLenLo = s.msgLenLo ∧ t.msgLenHi = s.msgLenHi

/-- The fault record is the same. -/
def sameRecord (s t : State) : Prop := t.fault = s.fault ∧ t.cause = s.cause ∧ t.finfo = s.finfo

/-- Every byte of the message memory reads as before, and all that lies outside the core is the same. -/
def sameOutside (s t : State) : Prop :=
  (∀ a, t.mem.read a = s.mem.read a) ∧ t.memLast = s.memLast ∧ t.pending = s.pending ∧ t.results = s.results

/-- `t` is `s` with the fault record written by the first fault since reset (R210): nothing else differs. -/
def recordsFault (s : State) (cause : Cause) (info : Word) (t : State) : Prop :=
  t = { s with fault := true, cause := cause, finfo := info }

/-- The message of the descriptor is `len` bytes at `base` (R26). -/
def describes (s : State) (base len : DWord) : Prop :=
  s.msgBaseLo = some (base.extractLsb' 0 32) ∧ s.msgBaseHi = some (base.extractLsb' 32 32)
    ∧ s.msgLenLo = some (len.extractLsb' 0 32) ∧ s.msgLenHi = some (len.extractLsb' 32 32)

/-- A host read at `off` returns no data and records `UNINIT_READ` with that offset (R64, R66). -/
def readsNothing (s : State) (off : Nat) : Prop :=
  ∃ t, hostRead (BitVec.ofNat 12 off) s = (t, none) ∧ recordsFault s .uninitRead (BitVec.ofNat 32 off) t

/-- All registers of the core but the fault record are the same. -/
def sameRegisters (s t : State) : Prop :=
  t.h = s.h ∧ t.m = s.m ∧ t.w = s.w ∧ t.cv = s.cv ∧ sameDescriptor s t ∧ t.ctx = s.ctx ∧ t.phase = s.phase
    ∧ t.eqFlag = s.eqFlag

/-- `i` is the lowest index at which a register file holds ⊥ (R215). -/
def lowestUnwritten {n : Nat} (v : Vector (Option Word) n) (i : Fin n) : Prop :=
  v[i] = none ∧ ∀ j : Fin n, j < i → v[j] ≠ none

/-- The faults of `LoadCtx` in their order (R172, R215), for a command `i` that runs it (LOAD or DIGEST). -/
def loadCtxFaults (i : Instr) (s : State) : Prop :=
  (s.msgBaseLo = none → ∃ t, exec i s = .next t ∧ recordsFault s .uninitRead 0x010 t)
    ∧ (s.msgBaseLo ≠ none → s.msgBaseHi = none → ∃ t, exec i s = .next t ∧ recordsFault s .uninitRead 0x014 t)
    ∧ (s.msgBaseLo ≠ none → s.msgBaseHi ≠ none → s.msgLenLo = none →
        ∃ t, exec i s = .next t ∧ recordsFault s .uninitRead 0x018 t)
    ∧ (s.msgBaseLo ≠ none → s.msgBaseHi ≠ none → s.msgLenLo ≠ none → s.msgLenHi = none →
        ∃ t, exec i s = .next t ∧ recordsFault s .uninitRead 0x01C t)
    ∧ (∀ base len, describes s base len → 2 ^ 61 - 1 < len.toNat →
        ∃ t, exec i s = .next t ∧ recordsFault s .length (encode i) t)
    ∧ ∀ base len, describes s base len → len.toNat ≤ 2 ^ 61 - 1 → s.memBytes < base.toNat + len.toNat →
        ∃ t, exec i s = .next t ∧ recordsFault s .range (encode i) t

/-- The descriptor names a message that `LoadCtx` accepts (R172). -/
def loadable (s : State) (base len : DWord) : Prop :=
  describes s base len ∧ len.toNat ≤ 2 ^ 61 - 1 ∧ base.toNat + len.toNat ≤ s.memBytes

/-- The next host event is no write of the message memory. -/
def noPoke (s : State) : Prop := ∀ addr b rest, s.pending ≠ .poke addr b :: rest

/-- A list of transactions, one after another. -/
def accessAll : List Access → State → Host.Outcome State Fault Refusal
  | [], s => .next s
  | a :: as, s =>
    match hostAccess a s with
    | .next t => accessAll as t
    | .fault e => .fault e
    | .refused e => .refused e

/-- The first 64 primes, to which R102 ties the constants. -/
def firstPrimes : List Nat :=
  [2, 3, 5, 7, 11, 13, 17, 19, 23, 29, 31, 37, 41, 43, 47, 53, 59, 61, 67, 71, 73, 79, 83, 89, 97, 101, 103, 107, 109,
    113, 127, 131] ++
  [137, 139, 149, 151, 157, 163, 167, 173, 179, 181, 191, 193, 197, 199, 211, 223, 227, 229, 233, 239, 241, 251, 257,
    263, 269, 271, 277, 281, 283, 293, 307, 311]

/-- The block of the three-byte message "abc" (spec/95_test_vectors.md section 2.2). -/
def abcWords : Vector Word 16 := #v[0x61626380, 0, 0, 0, 0, 0, 0, 0, 0, 0, 0, 0, 0, 0, 0, 0x18]

/-- The digest of "abc" (V2 of spec/95_test_vectors.md). -/
def abcDigest : Vector Word 8 :=
  #v[0xba7816bf, 0x8f01cfea, 0x414140de, 0x5dae2223, 0xb00361a3, 0x96177a9c, 0xb410ff61, 0xf20015ad]

/-- A list of commands, one after another. -/
def execAll : List Instr → State → Host.Outcome State Fault Refusal
  | [], s => .next s
  | i :: is, s =>
    match exec i s with
    | .next t => execAll is t
    | .fault e => .fault e
    | .refused e => .refused e

/-- The commands of the host-driven block loop over `n` blocks (R175). -/
def hostLoop (n : Nat) : List Instr := .init :: .load :: (List.replicate n [Instr.fill, Instr.compress]).flatten

end Sys2Proof.Machine
end

