-- ==== Sys2Proof/Laws/Context.lean ====
section
/-! SUPPORT. The invariants of the message context (R27): LOAD establishes them and every advance keeps them. -/

namespace Sys2Proof.Machine

/-- A context that `LoadCtx` accepts agrees with its message (R172). -/
theorem Ctx.start_agrees {base len : DWord} {memBytes : Nat} (hlen : len.toNat ≤ maxLen)
    (hmem : base.toNat + len.toNat ≤ memBytes) : (Ctx.start base len).Agrees memBytes := by
  have ht := Ctx.start_tbits (base := base) hlen
  have hn := Ctx.start_nblk (base := base) hlen
  refine ⟨by omega, ?_, by simp [Ctx.start], ?_, by simpa [Ctx.start] using hmem, by simp [Ctx.start]⟩
  · rw [hn, ht]; congr 1; omega
  · rw [ht]; simp [Ctx.start]

/-- The block count of a context that agrees stays below `2^64` by one more FILL. -/
theorem Ctx.Agrees.bcnt_succ {x : Ctx} {memBytes : Nat} (h : x.Agrees memBytes) :
    (x.bcnt + 1).toNat = x.bcnt.toNat + 1 := by
  have := h.nblk_eq
  have := h.bcnt_le
  have := x.tbits.isLt
  simp only [nBlocks] at *
  rw [BitVec.toNat_add]; simp; omega

/-- An advance by the bytes that FILL consumes keeps the agreement, whatever the free value (R156). -/
theorem Ctx.Agrees.advance {x : Ctx} {memBytes : Nat} (h : x.Agrees memBytes) (hmem : memBytes ≤ 2 ^ 64)
    (hne : x.bcnt ≠ x.nblk) (past : DWord) : (x.advance (consumedBytes x.rem.toNat) past).Agrees memBytes := by
  have hb := h.bcnt_succ
  obtain ⟨h8, hn, hle, hrem, hin, hlast⟩ := h
  have hlt : x.bcnt.toNat ≠ x.nblk.toNat := fun e => hne (BitVec.eq_of_toNat_eq e)
  have hr := x.rem.isLt
  have hp := past.isLt
  have hc : consumedBytes x.rem.toNat = min x.rem.toNat 64 := rfl
  have hsub : (x.rem - BitVec.ofNat 64 (consumedBytes x.rem.toNat)).toNat = x.rem.toNat - min x.rem.toNat 64 := by
    rw [BitVec.toNat_sub_of_le]
    · simp [hc]; omega
    · rw [BitVec.le_def]; simp [hc]; omega
  refine ⟨h8, hn, ?_, ?_, ?_, ?_⟩
  · simp only [Ctx.advance, hb]; omega
  · simp only [Ctx.advance, hb, hsub]; omega
  · simp only [Ctx.advance, hsub]
    split
    · rename_i hlt; rw [BitVec.toNat_add, hc]; rw [hc] at hlt; simp; omega
    · rename_i hlt; rw [hc] at hlt; omega
  · simp only [Ctx.advance, hb]
    rw [if_neg (by omega)]
    simp [hc]; omega

/-- The number of bytes of message memory is at most `2^64` (R9). -/
theorem State.memBytes_le (s : State) : s.memBytes ≤ 2 ^ 64 := by
  have := s.memLast.isLt
  simp only [State.memBytes]; omega

end Sys2Proof.Machine
end

