-- ==== Sys2Proof/Laws/Memory.lean ====
section
/-! SUPPORT. The laws of the message memory: a byte written is the byte read, other bytes stay, the canonical form is
kept, and it is canonical. -/

namespace Sys2Proof.Machine

@[simp] theorem Memory.read_nil (a : Nat) : Memory.read [] a = unlistedByte := rfl

theorem Memory.read_cons (k : Nat) (c : Byte) (rest : Memory) (a : Nat) :
    Memory.read ((k, c) :: rest) a = if k = a then c else Memory.read rest a := rfl

theorem Memory.wf_nil : Memory.wf [] := by simp [Memory.wf]

theorem Memory.wf_cons {k : Nat} {c : Byte} {rest : Memory} :
    Memory.wf ((k, c) :: rest) ↔ (∀ d ∈ rest, k < d.1) ∧ c ≠ unlistedByte ∧ Memory.wf rest := by
  simp only [Memory.wf, List.map_cons, List.pairwise_cons, List.mem_map, List.mem_cons, forall_eq_or_imp,
    forall_exists_index, and_imp, forall_apply_eq_imp_iff₂]
  tauto

/-- A memory that lists only addresses above `a` lists nothing at `a`. -/
theorem Memory.read_of_lt {mem : Memory} {a : Nat} (h : ∀ d ∈ mem, a < d.1) : mem.read a = unlistedByte := by
  induction mem with
  | nil => rfl
  | cons x rest ih =>
    obtain ⟨k, c⟩ := x
    have hk : a < k := h (k, c) (by simp)
    rw [Memory.read_cons, if_neg (by omega)]
    exact ih fun d hd => h d (by simp [hd])

/-- What a write lists: the address written and the addresses listed before. -/
theorem Memory.mem_write {mem : Memory} {a : Nat} {b : Byte} {d : Host.Cell} (h : d ∈ mem.write a b) :
    d = (a, b) ∨ d ∈ mem := by
  induction mem with
  | nil =>
    unfold Memory.write at h
    split at h <;> simp_all
  | cons x rest ih =>
    obtain ⟨k, c⟩ := x
    unfold Memory.write at h
    repeat' split at h
    all_goals simp only [List.mem_cons] at h ⊢
    all_goals tauto

/-- A write keeps the canonical form. -/
theorem Memory.write_wf {mem : Memory} (h : mem.wf) (a : Nat) (b : Byte) : (mem.write a b).wf := by
  induction mem with
  | nil =>
    unfold Memory.write
    split
    · exact h
    · exact Memory.wf_cons.2 ⟨by simp, by assumption, h⟩
  | cons x rest ih =>
    obtain ⟨k, c⟩ := x
    obtain ⟨hlt, hc, hr⟩ := Memory.wf_cons.1 h
    unfold Memory.write
    split
    · split
      · exact h
      · refine Memory.wf_cons.2 ⟨fun d hd => ?_, by assumption, h⟩
        rcases List.mem_cons.1 hd with rfl | hd
        · assumption
        · have := hlt d hd; omega
    · split
      · split
        · exact hr
        · exact Memory.wf_cons.2 ⟨fun d hd => by have := hlt d hd; omega, by assumption, hr⟩
      · refine Memory.wf_cons.2 ⟨fun d hd => ?_, hc, ih hr⟩
        rcases Memory.mem_write hd with rfl | hd
        · dsimp only; omega
        · exact hlt d hd

/-- One read after one write, in a canonical memory. -/
theorem Memory.read_write {mem : Memory} (h : mem.wf) (a x : Nat) (b : Byte) :
    (mem.write a b).read x = if x = a then b else mem.read x := by
  induction mem with
  | nil =>
    unfold Memory.write
    split <;> simp only [Memory.read_nil, Memory.read_cons] <;> grind
  | cons y rest ih =>
    obtain ⟨k, c⟩ := y
    obtain ⟨hlt, hc, hr⟩ := Memory.wf_cons.1 h
    have hnone : ∀ z, z ≤ k → Memory.read rest z = unlistedByte := fun z hz =>
      Memory.read_of_lt fun d hd => lt_of_le_of_lt hz (hlt d hd)
    unfold Memory.write
    repeat' split
    all_goals grind [Memory.read_cons]

/-- A byte written is the byte read. -/
theorem Memory.read_write_same {mem : Memory} (h : mem.wf) (a : Nat) (b : Byte) : (mem.write a b).read a = b := by
  simp [Memory.read_write h]

/-- A write leaves every other byte alone. -/
theorem Memory.read_write_other {mem : Memory} (h : mem.wf) {a x : Nat} (hx : x ≠ a) (b : Byte) :
    (mem.write a b).read x = mem.read x := by
  simp [Memory.read_write h, hx]

/-- A listed byte is the byte read. -/
theorem Memory.read_of_mem {mem : Memory} (h : mem.wf) {d : Host.Cell} (hd : d ∈ mem) : mem.read d.1 = d.2 := by
  induction mem with
  | nil => simp at hd
  | cons y rest ih =>
    obtain ⟨k, c⟩ := y
    obtain ⟨hlt, _, hr⟩ := Memory.wf_cons.1 h
    rcases List.mem_cons.1 hd with rfl | hd
    · simp [Memory.read_cons]
    · rw [Memory.read_cons, if_neg (by have := hlt d hd; omega)]
      exact ih hr hd

/-- An address that reads as nothing unlisted reads as is listed. -/
theorem Memory.mem_of_read {mem : Memory} {a : Nat} (h : mem.read a ≠ unlistedByte) : (a, mem.read a) ∈ mem := by
  induction mem with
  | nil => simp at h
  | cons y rest ih =>
    obtain ⟨k, c⟩ := y
    rw [Memory.read_cons] at h ⊢
    split
    · subst k; simp
    · rename_i hk
      rw [if_neg hk] at h
      exact List.mem_cons_of_mem _ (ih h)

end Sys2Proof.Machine
end

