-- ==== Sys2Proof/Laws/Padding.lean ====
section
/-! SUPPORT. The block filler as bytes: the bytes of a packed word, of a block, of a message and of the length field. -/

namespace Sys2Proof.Machine

/-! ### Bytes of a packed word (R52) -/

section PackWord

variable (b0 b1 b2 b3 : Byte)

@[simp] theorem wordByte_packWord_zero : wordByte (packWord b0 b1 b2 b3) 0 = b0 := by
  unfold wordByte packWord; ext i hi; simp; grind

@[simp] theorem wordByte_packWord_one : wordByte (packWord b0 b1 b2 b3) 1 = b1 := by
  unfold wordByte packWord; ext i hi; simp; grind

@[simp] theorem wordByte_packWord_two : wordByte (packWord b0 b1 b2 b3) 2 = b2 := by
  unfold wordByte packWord; ext i hi; simp; grind

@[simp] theorem wordByte_packWord_three : wordByte (packWord b0 b1 b2 b3) 3 = b3 := by
  unfold wordByte packWord; ext i hi; simp; grind

end PackWord

/-! ### Bytes of a message and of the length field -/

theorem messageBytes_eq_map (mem : Memory) (cur n : Nat) :
    messageBytes mem cur n = (List.range n).map fun k => mem.read (cur + k) := by
  induction n generalizing cur with
  | zero => rfl
  | succ n ih =>
    rw [messageBytes, ih, List.range_succ_eq_map]
    simp only [List.map_cons, Nat.add_zero, List.map_map, List.cons.injEq, true_and]
    exact List.map_congr_left fun a _ => congrArg mem.read (show cur + 1 + a = cur + (a + 1) by omega)

@[simp] theorem length_messageBytes (mem : Memory) (cur n : Nat) : (messageBytes mem cur n).length = n := by
  simp [messageBytes_eq_map]

@[simp] theorem getElem_messageBytes (mem : Memory) (cur n k : Nat) (h : k < (messageBytes mem cur n).length) :
    (messageBytes mem cur n)[k] = mem.read (cur + k) := by
  simp [messageBytes_eq_map]

@[simp] theorem length_lengthField (tbits : DWord) : (lengthField tbits).length = 8 := rfl

@[simp] theorem getElem_lengthField (tbits : DWord) (k : Nat) (h : k < (lengthField tbits).length) :
    (lengthField tbits)[k] = lengthByte tbits k :=
  match k, h with
  | 0, _ | 1, _ | 2, _ | 3, _ | 4, _ | 5, _ | 6, _ | 7, _ => rfl

/-! ### Bytes of a block -/

/-- The bytes of a block in message order are the 64 bytes that R151 writes. -/
theorem wordsToBytes_fill (mem : Memory) (cur rem : Nat) (tbits : DWord) :
    wordsToBytes (fill mem cur rem tbits).block.toList =
      (List.range 64).map (fillByte mem cur (consumedBytes rem) tbits) := by
  simp only [fill, wordsToBytes, Vector.toList_ofFn, List.ofFn_succ, List.ofFn_zero, List.flatMap_cons,
    List.flatMap_nil, wordByte_packWord_zero, wordByte_packWord_one, wordByte_packWord_two, wordByte_packWord_three]
  rfl

/-- A block depends on the bytes it consumes and on no other (R51, R151). -/
theorem fill_congr {mem mem' : Memory} {cur rem : Nat} {tbits : DWord}
    (h : ∀ k, k < consumedBytes rem → mem'.read (cur + k) = mem.read (cur + k)) :
    fill mem' cur rem tbits = fill mem cur rem tbits := by
  have key : fillByte mem' cur (consumedBytes rem) tbits = fillByte mem cur (consumedBytes rem) tbits := by
    funext k
    unfold fillByte
    split
    · rfl
    · split
      · rfl
      · split
        · exact h k (by assumption)
        · rfl
  simp [fill, key]

/-- Word `i` of a block packs its four bytes (R52, R151). -/
theorem getElem_fill_block (mem : Memory) (cur rem : Nat) (tbits : DWord) (i : Nat) (h : i < 16) :
    (fill mem cur rem tbits).block[i] =
      packWord (fillByte mem cur (consumedBytes rem) tbits (4 * i))
        (fillByte mem cur (consumedBytes rem) tbits (4 * i + 1)) (fillByte mem cur (consumedBytes rem) tbits (4 * i + 2))
        (fillByte mem cur (consumedBytes rem) tbits (4 * i + 3)) := by
  simp [fill]

end Sys2Proof.Machine
end

