-- ==== Sys2Proof/Laws/PerInstr.lean ====
section
/-! SUPPORT. A statement about every command as syntax, proved constructor by constructor. -/

namespace Sys2Proof.Laws.CommandWord

/-- The command is well-formed, its word is a legal command word, and the word's `RSVD` field is zero (R80, R85). -/
def Statement (i : Instr) : Prop := i.wf = true ∧ commandWordWf (encode i) = true ∧ rsvdField (encode i) = 0

theorem init : Statement .init := by unfold Statement; decide
theorem load : Statement .load := by unfold Statement; decide
theorem fill : Statement .fill := by unfold Statement; decide
theorem sched : Statement .sched := by unfold Statement; decide
theorem compress : Statement .compress := by unfold Statement; decide
theorem digest : Statement .digest := by unfold Statement; decide
theorem cmp : Statement .cmp := by unfold Statement; decide

end Sys2Proof.Laws.CommandWord
end

