-- ==== Sys2Proof/Laws/Window.lean ====
section
/-! SUPPORT. What a host access, a host event and a step can answer. -/

namespace Sys2Proof.Machine

/-- A host write (R63): ignored, a bad access, a command word, or one register written. -/
theorem hostWrite_cases (off : BitVec 12) (v : Word) (s : State) :
    (s.fault = true ∧ hostWrite off v s = .next s) ∨
      (s.fault = false ∧ hostWrite off v s = .next (s.raise .badAccess (writeInfo off))) ∨
      (s.fault = false ∧ regAt off = some .cmd ∧ hostWrite off v s = issueCommand v s) ∨
      (s.fault = false ∧ ∃ r t, regAt off = some r ∧ r.store v s = some t ∧ hostWrite off v s = .next t) := by
  unfold hostWrite
  cases hf : s.fault with
  | true => simp
  | false =>
    simp only [Bool.false_eq_true, if_false, false_and, true_and, false_or]
    split
    · simp
    · rename_i h; simp [h]
    · rename_i r hne h
      cases ht : r.store v s with
      | none => simp
      | some t => exact .inr (.inr ⟨r, t, h, ht, rfl⟩)

/-- A host read (R64): a word and no change, or no data and perhaps a fault recorded. -/
theorem hostRead_cases (off : BitVec 12) (s : State) :
    (∃ r v, regAt off = some r ∧ r.content s = some v ∧ hostRead off s = (s, some v)) ∨
      hostRead off s = (s.raise .badAccess (readInfo off), none) ∨
      hostRead off s = (s.raise .uninitRead (readInfo off), none) := by
  unfold hostRead
  split
  · simp
  · rename_i r h
    split
    · cases hc : r.content s with
      | none => simp
      | some v => exact .inl ⟨r, v, h, hc, rfl⟩
    · simp

/-- The command word of a write to `CMD` (R81). -/
theorem issueCommand_cases (v : Word) (s : State) :
    (∃ i, decode v = .ok i ∧ issueCommand v s = exec i s) ∨
      ∃ e, decode v = .error e ∧ issueCommand v s = .next (s.raise .illegalCmd v) := by
  unfold issueCommand
  cases decode v with
  | ok i => exact .inl ⟨i, rfl, rfl⟩
  | error e => exact .inr ⟨e, rfl, rfl⟩

/-- What a step can be: waiting, or the next host event. -/
theorem step_cases (s : State) :
    (s.pending = [] ∧ step s = .next s) ∨
      (∃ off v rest, s.pending = .access (.write off v) :: rest ∧ step s = hostWrite off v (s.setPending rest)) ∨
      (∃ off rest, s.pending = .access (.read off) :: rest ∧ step s = .next
        ((hostRead off (s.setPending rest)).1.addResult ⟨off, (hostRead off (s.setPending rest)).2⟩)) ∨
      (∃ rest, s.pending = .reset :: rest ∧ step s = .next (s.setPending rest).applyReset) ∨
      ∃ addr b rest, s.pending = .poke addr b :: rest ∧ step s = hostPoke addr b (s.setPending rest) := by
  unfold step
  rcases h : s.pending with _ | ⟨e, rest⟩
  · simp
  · rcases e with (⟨off, v⟩ | off) | _ | ⟨addr, b⟩ <;> simp [hostEvent, hostAccess]

/-- A host write of the message memory (R50). -/
theorem hostPoke_cases (addr : DWord) (b : Byte) (s : State) :
    (addr.toNat < s.memBytes ∧ hostPoke addr b s = .next (s.setMem (s.mem.write addr.toNat b))) ∨
      (s.memBytes ≤ addr.toNat ∧ hostPoke addr b s = .fault (.noSuchAddress addr.toNat)) := by
  unfold hostPoke
  by_cases h : addr.toNat < s.memBytes
  · simp [h]
  · exact .inr ⟨by omega, if_neg h⟩

end Sys2Proof.Machine
end

