-- ==== Sys2Proof/Machine/Assembler.lean ====
section
/-! DEFINITION. The assembler syntax of R88 and R89: from the lines of a program to its statements. How the text is
spelled beyond the words of R88 is notes/assumptions/18.md. -/

namespace Sys2Proof.Machine

/-- A word of a line, or one of the marks `,` and `=`. -/
abbrev Token := List Char

/-- Whether a character separates words. -/
def isBlank (c : Char) : Bool := c == ' ' || c == '\t' || c == '\r'

/-- A word read so far, as a token; an empty one is none. -/
def flush (word : Token) : List Token := if word.isEmpty then [] else [word]

/-- The tokens of a line; `;` starts a comment (R88). `word` is the word read so far. -/
def tokens (word : Token) : List Char → List Token
  | [] => flush word
  | c :: cs =>
    if c == ';' then flush word
    else if isBlank c then flush word ++ tokens [] cs
    else if c == ',' || c == '=' then flush word ++ [c] :: tokens [] cs
    else tokens (word ++ [c]) cs

/-- The value of a digit. -/
def digitValue (c : Char) : Option Nat :=
  match upperDigits.findIdx? (· == c) with
  | some d => some d
  | none => lowerDigits.findIdx? (· == c)

/-- The number that the digits `cs` write in a base, after the digits of `n`. -/
def numberFrom (radix n : Nat) : List Char → Option Nat
  | [] => some n
  | c :: cs =>
    match digitValue c with
    | some d => if d < radix then numberFrom radix (radix * n + d) cs else none
    | none => none

/-- A number of at least one digit. -/
def parseDigits (radix : Nat) (t : Token) : Option Nat := if t.isEmpty then none else numberFrom radix 0 t

/-- A number: hexadecimal with `0x`, or decimal (R88). -/
def parseNumber : Token → Option Nat
  | '0' :: 'x' :: cs => parseDigits 16 cs
  | cs => parseDigits 10 cs

/-- A number as a field of `width` bits; one that does not fit is refused. -/
def fit (width : Nat) (n : Option Nat) : Option (BitVec width) :=
  match n with
  | some k => if k < 2 ^ width then some (BitVec.ofNat width k) else none
  | none => none

/-- A value of a statement (R88). -/
def parseWord (t : Token) : Option Word := fit 32 (parseNumber t)

/-- A base or a length of `SETMSG` and `HASH` (R89). -/
def parseDWord (t : Token) : Option DWord := fit 64 (parseNumber t)

/-- The register names of R60 that carry no index. -/
def plainRegs : List (String × Reg) :=
  [("CMD", .cmd), ("STATUS", .status), ("FINFO", .finfo), ("MSG_BASE_LO", .msgBaseLo), ("MSG_BASE_HI", .msgBaseHi),
    ("MSG_LEN_LO", .msgLenLo), ("MSG_LEN_HI", .msgLenHi), ("CUR_LO", .curLo), ("CUR_HI", .curHi), ("REM_LO", .remLo),
    ("REM_HI", .remHi), ("TBITS_LO", .tbitsLo), ("TBITS_HI", .tbitsHi), ("NBLK_LO", .nblkLo), ("NBLK_HI", .nblkHi),
    ("BCNT_LO", .bcntLo), ("BCNT_HI", .bcntHi), ("LASTC", .lastc)]

/-- An element of a register file of `n` elements. -/
def element {n : Nat} (reg : Fin n → Reg) (i : Nat) : Option Reg := if h : i < n then some (reg ⟨i, h⟩) else none

/-- The register files of R60 by name. -/
def indexedReg (name : String) (i : Nat) : Option Reg :=
  if name == "H" then element .h i
  else if name == "CV" then element .cv i
  else if name == "M" then element .m i
  else if name == "W" then element .w i
  else if name == "K" then element .k i
  else if name == "IV" then element .iv i
  else none

/-- A register name of R60, such as `MSG_LEN_LO`, `M[3]` or `CV[7]` (R88).
DESIGN CHOICE (notes/assumptions/18.md): the index may be written as any number of R88, in decimal or with `0x`. -/
def parseReg (t : Token) : Option Reg :=
  match t.dropWhile (· != '[') with
  | [] => plainRegs.lookup (String.ofList t)
  | _ :: rest =>
    if rest.getLast? == some ']' then
      match parseNumber rest.dropLast with
      | some i => indexedReg (String.ofList (t.takeWhile (· != '['))) i
      | none => none
    else none

/-- The command mnemonics of R82. -/
def mnemonics : List (String × Instr) :=
  [("INIT", .init), ("LOAD", .load), ("FILL", .fill), ("SCHED", .sched), ("COMPRESS", .compress), ("DIGEST", .digest),
    ("CMP", .cmp)]

/-- Values with commas between them, at least one. -/
def parseValues : List Token → Option (List Word)
  | [] => none
  | [v] => (parseWord v).map fun x => [x]
  | v :: comma :: vs =>
    if comma == [','] then
      match parseWord v, parseValues vs with
      | some x, some xs => some (x :: xs)
      | _, _ => none
    else none

/-- The operands of `WRBLK` and `WRCV` (R89).
DESIGN CHOICE (notes/assumptions/18.md): there may be none, since R89 gives no least number of operands; such a
statement expands to nothing. -/
def parseOperands (ts : List Token) : Option (List Word) := if ts.isEmpty then some [] else parseValues ts

/-- `<base>, <len>` (R89). -/
def parsePair (make : DWord → DWord → Stmt) : List Token → Option Stmt
  | [b, comma, l] =>
    if comma == [','] then
      match parseDWord b, parseDWord l with
      | some x, some y => some (make x y)
      | _, _ => none
    else none
  | _ => none

/-- What a read is expected to return: nothing said, `= <value>`, or `= no data` (R88). -/
def parseExpect : List Token → Option Expect
  | [] => some .nothing
  | [eq, v] => if eq == ['='] then (parseWord v).map Expect.value else none
  | [eq, w1, w2] => if eq == ['='] && w1 == ['n', 'o'] && w2 == ['d', 'a', 't', 'a'] then some .noData else none
  | _ => none

/-- `<reg>, <value>` of `WR` (R88). -/
def parseWr : List Token → Option Stmt
  | [r, comma, v] =>
    if comma == [','] then
      match parseReg r, parseWord v with
      | some reg, some x => some (.wr reg x)
      | _, _ => none
    else none
  | _ => none

/-- `<reg>` of `RD`, with an expectation or without (R88). -/
def parseRd : List Token → Option Stmt
  | r :: rest =>
    match parseReg r, parseExpect rest with
    | some reg, some e => some (.rd reg e)
    | _, _ => none
  | [] => none

/-- `<off> <data>` of a raw write: both in hexadecimal (R87).
DESIGN CHOICE (notes/assumptions/18.md): a raw operand is bare digits, as every transaction of the spec is written, and
takes no `0x`. -/
def parseRawWrite : List Token → Option Stmt
  | [off, data] =>
    match fit 12 (parseDigits 16 off), fit 32 (parseDigits 16 data) with
    | some o, some v => some (.raw (.write o v))
    | _, _ => none
  | _ => none

/-- `<off>` of a raw read, in hexadecimal without `0x` (R87, notes/assumptions/18.md). -/
def parseRawRead : List Token → Option Stmt
  | [off] => (fit 12 (parseDigits 16 off)).map fun o => .raw (.read o)
  | _ => none

/-- A statement that takes no operand. -/
def parseAlone (st : Stmt) : List Token → Option Stmt
  | [] => some st
  | _ :: _ => none

/-- The statement that begins with a word and goes on with `args` (R88, R89). -/
def parseOp (op : String) (args : List Token) : Option Stmt :=
  if op == "WR" then parseWr args
  else if op == "RD" then parseRd args
  else if op == "W" then parseRawWrite args
  else if op == "R" then parseRawRead args
  else if op == "SETMSG" then parsePair .setmsg args
  else if op == "HASH" then parsePair .hash args
  else if op == "BLOCK" then parseAlone .block args
  else if op == "WRBLK" then (parseOperands args).map .wrblk
  else if op == "WRCV" then (parseOperands args).map .wrcv
  else if op == "RDH" then parseAlone .rdh args
  else if op == "RDSTATUS" then (parseExpect args).map .rdstatus
  else (mnemonics.lookup op).bind fun i => parseAlone (.command i) args

/-- The statements of one line: none on an empty line or a comment, else one, which must be well-formed (R88). The
result is none where the line is no statement. -/
def parseLine (line : List Char) : Option (List Stmt) :=
  match tokens [] line with
  | [] => some []
  | op :: args =>
    match parseOp (String.ofList op) args with
    | some st => if st.wf then some [st] else none
    | none => none

/-- The statements of a program, one line each (R88). -/
def parseProgram : List (List Char) → Option (List Stmt)
  | [] => some []
  | line :: rest =>
    match parseLine line, parseProgram rest with
    | some p, some q => some (p ++ q)
    | _, _ => none

end Sys2Proof.Machine
end

