-- ==== Sys2Proof/Certificates/Slice0/Obligations.lean ====
section
/-! DEFINITION. The statements for the provers, in the order of spec/: encoding, reset, the functions, the commands,
whole-machine rules, the register window, the step, the invariant, the message memory and the platform. -/

open Sys2Proof Sys2Proof.Machine

/-! ### Encoding -/

/-- R82: words of the opcode map, and two words that are none. -/
def Obligations.CommandWordsDecode : Prop :=
  decode 0x00000001 = .ok .init ∧ decode 0x00000002 = .ok .load ∧ decode 0x00000003 = .ok .fill
    ∧ decode 0x00000004 = .ok .sched ∧ decode 0x00000005 = .ok .compress ∧ decode 0x00000006 = .ok .digest
    ∧ decode 0x00000007 = .ok .cmp ∧ decode 0x00000000 = .error .unknownOpcode
    ∧ decode 0x00000101 = .error .reservedBitsSet

/-- R82, R85: decoding and encoding agree in both directions, over every 32-bit word. -/
def Obligations.DecodeAndEncodeAgree : Prop :=
  (∀ i : Instr, i.wf = true → decode (encode i) = .ok i) ∧ (∀ (v : Word) (i : Instr), decode v = .ok i → v = encode i)
    ∧ ∀ v : Word, commandWordWf v = true ↔ ∃ i, decode v = .ok i

/-- R81, R85: a write to `CMD` runs one of the seven commands or raises `ILLEGAL_CMD` with the word as information. -/
def Obligations.WordsAreCommandsOrIllegal : Prop :=
  ∀ (v : Word) (s : State), s.fault = false →
    ((v.extractLsb' 8 24 ≠ 0 ∨ v.extractLsb' 0 8 = 0 ∨ 0x08 ≤ (v.extractLsb' 0 8).toNat) →
        ∃ t, hostWrite 0x000 v s = .next t ∧ recordsFault s .illegalCmd v t)
      ∧ (v.extractLsb' 8 24 = 0 → v.extractLsb' 0 8 ≠ 0 → (v.extractLsb' 0 8).toNat < 0x08 →
        ∃ i, v = encode i ∧ hostWrite 0x000 v s = exec i s)

/-- R60: every register stands at its offset, and no two share one. -/
def Obligations.RegisterOffsetsAgree : Prop :=
  (∀ r : Reg, regAt r.offset = some r) ∧ ∀ (off : BitVec 12) (r : Reg), regAt off = some r → r.offset = off

/-! ### Reset -/

/-- R38: the values after reset. -/
def Obligations.ResetLeavesNoValue : Prop :=
  (∀ j : Fin 8, State.reset.h[j] = none) ∧ (∀ i : Fin 16, State.reset.m[i] = none)
    ∧ (∀ i : Fin 64, State.reset.w[i] = none) ∧ (∀ j : Fin 8, State.reset.cv[j] = none)
    ∧ State.reset.msgBaseLo = none ∧ State.reset.msgBaseHi = none ∧ State.reset.msgLenLo = none
    ∧ State.reset.msgLenHi = none ∧ State.reset.ctx = none ∧ State.reset.phase = .uninit
    ∧ State.reset.fault = false ∧ State.reset.cause = .noFault ∧ State.reset.finfo = 0 ∧ State.reset.eqFlag = false
    ∧ State.reset.status = 0x00000000

/-- R38, R230, R232: the reset event, from any state, faulted or not. That it leaves the host's later events, the
results already seen and the size of the memory is the model's choice (notes/assumptions/12.md, 4.md). -/
def Obligations.ResetEventRestoresReset : Prop :=
  ∀ (s : State) (rest : List HostEvent), s.pending = .reset :: rest →
    ∃ t, step s = .next t ∧ (∀ j : Fin 8, t.h[j] = none) ∧ (∀ i : Fin 16, t.m[i] = none)
      ∧ (∀ i : Fin 64, t.w[i] = none) ∧ (∀ j : Fin 8, t.cv[j] = none) ∧ t.msgBaseLo = none ∧ t.msgBaseHi = none
      ∧ t.msgLenLo = none ∧ t.msgLenHi = none ∧ t.ctx = none ∧ t.phase = .uninit ∧ t.fault = false
      ∧ t.cause = .noFault ∧ t.finfo = 0 ∧ t.eqFlag = false ∧ t.status = 0x00000000
      ∧ (∀ a, t.mem.read a = s.mem.read a) ∧ t.memLast = s.memLast ∧ t.pending = rest ∧ t.results = s.results
      ∧ (∀ i : Fin 64, (Reg.k i).content t = (Reg.k i).content s)
      ∧ ∀ j : Fin 8, (Reg.iv j).content t = (Reg.iv j).content s

/-! ### Word functions -/

/-- R14: `rotr` moves bit `i + n` (mod 32) to bit `i`, and `>>` divides by a power of two. -/
def Obligations.RotationAndShiftMoveBits : Prop :=
  (∀ (x : Word) (n i : Nat), 1 ≤ n → n ≤ 31 → i < 32 → (rotr x n).getLsbD i = x.getLsbD ((i + n) % 32))
    ∧ ∀ (x : Word) (n : Nat), (shr x n).toNat = x.toNat / 2 ^ n

/-- R110: the small sigma functions, their corner cases and their linearity over exclusive or. -/
def Obligations.SmallSigmasAreLinear : Prop :=
  (∀ x : Word, smallSigma0 x = x.rotateRight 7 ^^^ x.rotateRight 18 ^^^ (x >>> 3)
      ∧ smallSigma1 x = x.rotateRight 17 ^^^ x.rotateRight 19 ^^^ (x >>> 10))
    ∧ (∀ x y : Word, smallSigma0 (x ^^^ y) = smallSigma0 x ^^^ smallSigma0 y
      ∧ smallSigma1 (x ^^^ y) = smallSigma1 x ^^^ smallSigma1 y)
    ∧ smallSigma0 0 = 0 ∧ smallSigma1 0 = 0 ∧ smallSigma0 0xffffffff = 0x1fffffff
    ∧ smallSigma1 0xffffffff = 0x003fffff ∧ smallSigma0 0x12345678 = 0xe7fce6ee
    ∧ smallSigma1 0x12345678 = 0xa1f78649

/-- R130: the big sigma functions and their corner cases. -/
def Obligations.BigSigmasRotate : Prop :=
  (∀ x : Word, bigSigma0 x = x.rotateRight 2 ^^^ x.rotateRight 13 ^^^ x.rotateRight 22
      ∧ bigSigma1 x = x.rotateRight 6 ^^^ x.rotateRight 11 ^^^ x.rotateRight 25)
    ∧ bigSigma0 0 = 0 ∧ bigSigma1 0 = 0 ∧ bigSigma0 0xffffffff = 0xffffffff ∧ bigSigma1 0xffffffff = 0xffffffff
    ∧ bigSigma0 0x6a09e667 = 0xce20b47e ∧ bigSigma1 0x510e527f = 0x3587272b

/-- R131, R132: `Ch` selects and `Maj` takes the majority, bit by bit. -/
def Obligations.ChoiceSelectsAndMajorityVotes : Prop :=
  (∀ (e f g : Word) (i : Nat), i < 32 →
      (ch e f g).getLsbD i = if e.getLsbD i then f.getLsbD i else g.getLsbD i)
    ∧ (∀ (a b c : Word) (i : Nat), i < 32 → ((maj a b c).getLsbD i = true ↔
      2 ≤ (a.getLsbD i).toNat + (b.getLsbD i).toNat + (c.getLsbD i).toNat))
    ∧ (∀ f g : Word, ch 0xffffffff f g = f ∧ ch 0 f g = g)
    ∧ (∀ x y c : Word, maj x x y = x ∧ maj 0xffffffff 0 c = c)
    ∧ ch 0xf0f0f0f0 0xaaaaaaaa 0x55555555 = 0xa5a5a5a5 ∧ maj 0xf0f0f0f0 0xcccccccc 0xaaaaaaaa = 0xe8e8e8e8

/-- R102: the constants are the fractional parts of cube and square roots of the first primes. -/
def Obligations.ConstantsAreRootsOfPrimes : Prop :=
  (∀ i : Fin 64, ∃ r : Nat, r ^ 3 ≤ firstPrimes.getD i.val 0 * 2 ^ 96
      ∧ firstPrimes.getD i.val 0 * 2 ^ 96 < (r + 1) ^ 3 ∧ K[i].toNat = r % 2 ^ 32)
    ∧ ∀ j : Fin 8, ∃ r : Nat, r ^ 2 ≤ firstPrimes.getD j.val 0 * 2 ^ 64
      ∧ firstPrimes.getD j.val 0 * 2 ^ 64 < (r + 1) ^ 2 ∧ IV[j].toNat = r % 2 ^ 32

/-! ### Scheduler -/

/-- R111: the finished schedule satisfies the recurrence, and starts with the block. -/
def Obligations.ScheduleFollowsRecurrence : Prop :=
  ∀ b : Vector Word 16,
    (∀ i : Nat, i < 16 → wordAt (schedule b) i = wordAt b i)
      ∧ ∀ i : Nat, 16 ≤ i → i < 64 → wordAt (schedule b) i =
        wordAt (schedule b) (i - 16) + smallSigma0 (wordAt (schedule b) (i - 15)) + wordAt (schedule b) (i - 7)
          + smallSigma1 (wordAt (schedule b) (i - 2))

/-- R113: SCHED, where it completes and where it faults. -/
def Obligations.SchedWritesSchedule : Prop :=
  encode .sched = 0x00000004
    ∧ (∀ (s : State) (b : Vector Word 16), (∀ i : Fin 16, s.m[i] = some b[i]) →
      ∃ t, exec .sched s = .next t ∧ (∀ i : Fin 64, t.w[i] = some (schedule b)[i]) ∧ t.h = s.h ∧ t.phase = s.phase
        ∧ t.ctx = s.ctx ∧ t.m = s.m ∧ t.cv = s.cv ∧ sameDescriptor s t ∧ t.eqFlag = s.eqFlag ∧ sameRecord s t
        ∧ sameOutside s t ∧ t.freeCount = s.freeCount ∧ exec .sched t = .next t)
    ∧ (∀ (s : State) (i : Fin 16), s.fault = false → lowestUnwritten s.m i →
      ∃ t, exec .sched s = .next t ∧ recordsFault s .uninitRead (BitVec.ofNat 32 (0x0C0 + 4 * i.val)) t)
    ∧ schedule (Vector.replicate 16 0) = Vector.replicate 64 0
    ∧ wordAt (schedule abcWords) 16 = 0x61626380 ∧ wordAt (schedule abcWords) 17 = 0x000f0000
    ∧ wordAt (schedule abcWords) 63 = 0x12b1edeb

/-! ### Compression -/

/-- R139: the eight-iteration form gives the result of the loop on every input. That the unrolled form renames its
variables as this model's does is the model's reading (notes/assumptions/14.md). Both forms share `temp1`, `temp2` and
`feedForward`, so R133 itself stands in `RoundsFollowEquations`. -/
def Obligations.UnrolledFormEqualsLoop : Prop :=
  ∀ (hs : Vector Word 8) (b : Vector Word 16), compressUnrolled hs b = compress hs b

/-- R133 to R136: the eight variables of the 64 rounds, each a sequence in the round number: loaded from the hash state
in index order, changed by the equations of R133, and added back to the hash state; and the corner cases of R137. -/
def Obligations.RoundsFollowEquations : Prop :=
  (∀ (hs : Vector Word 8) (blk : Vector Word 16), (compress hs blk).sched = schedule blk
      ∧ ∃ a b c d e f g h : Nat → Word,
        a 0 = hs[0] ∧ b 0 = hs[1] ∧ c 0 = hs[2] ∧ d 0 = hs[3] ∧ e 0 = hs[4] ∧ f 0 = hs[5] ∧ g 0 = hs[6] ∧ h 0 = hs[7]
          ∧ (∀ i : Fin 64,
            let t1 := h i + bigSigma1 (e i) + ch (e i) (f i) (g i) + K[i] + (schedule blk)[i]
            let t2 := bigSigma0 (a i) + maj (a i) (b i) (c i)
            a (i + 1) = t1 + t2 ∧ b (i + 1) = a i ∧ c (i + 1) = b i ∧ d (i + 1) = c i ∧ e (i + 1) = d i + t1
              ∧ f (i + 1) = e i ∧ g (i + 1) = f i ∧ h (i + 1) = g i)
          ∧ (compress hs blk).hash[0] = hs[0] + a 64 ∧ (compress hs blk).hash[1] = hs[1] + b 64
          ∧ (compress hs blk).hash[2] = hs[2] + c 64 ∧ (compress hs blk).hash[3] = hs[3] + d 64
          ∧ (compress hs blk).hash[4] = hs[4] + e 64 ∧ (compress hs blk).hash[5] = hs[5] + f 64
          ∧ (compress hs blk).hash[6] = hs[6] + g 64 ∧ (compress hs blk).hash[7] = hs[7] + h 64)
    ∧ (compress (Vector.replicate 8 0) (Vector.replicate 16 0)).hash =
      #v[0x7ca51614, 0x425c3ba8, 0xce54dd2f, 0xc2020ae7, 0xb6e574d1, 0x98136d0f, 0xae7e26cc, 0xbf0be7a6]
    ∧ (compress IV abcWords).hash = abcDigest

/-- R138: COMPRESS, where it completes and where it faults. -/
def Obligations.CompressFoldsBlock : Prop :=
  encode .compress = 0x00000005
    ∧ (∀ (s : State) (hs : Vector Word 8) (b : Vector Word 16), (s.phase = .initialized ∨ s.phase = .updated) →
      (∀ j : Fin 8, s.h[j] = some hs[j]) → (∀ i : Fin 16, s.m[i] = some b[i]) →
      ∃ t, exec .compress s = .next t ∧ (∀ i : Fin 64, t.w[i] = some (schedule b)[i])
        ∧ (∀ j : Fin 8, t.h[j] = some (compress hs b).hash[j]) ∧ t.phase = .updated ∧ t.ctx = s.ctx ∧ t.m = s.m
        ∧ t.cv = s.cv ∧ sameDescriptor s t ∧ t.eqFlag = s.eqFlag ∧ sameRecord s t ∧ sameOutside s t
        ∧ t.freeCount = s.freeCount)
    ∧ (compress IV abcWords).hash = abcDigest
    ∧ ∀ s : State, s.fault = false →
      (s.phase = .uninit → ∃ t, exec .compress s = .next t ∧ recordsFault s .uninitRead 0x080 t)
        ∧ (s.phase = .final → ∃ t, exec .compress s = .next t ∧ recordsFault s .finalized 0x00000005 t)
        ∧ ∀ i : Fin 16, (s.phase = .initialized ∨ s.phase = .updated) → lowestUnwritten s.m i →
          ∃ t, exec .compress s = .next t ∧ recordsFault s .uninitRead (BitVec.ofNat 32 (0x0C0 + 4 * i.val)) t

/-! ### Padding -/

/-- R154: the five cases of the filler. -/
def Obligations.FillHasFiveCases : Prop :=
  ∀ (mem : Memory) (cur r : Nat) (tbits : DWord),
    let out := fill mem cur r tbits
    let bytes := wordsToBytes out.block.toList
    (64 ≤ r → out.consumed = 64 ∧ bytes = messageBytes mem cur 64)
      ∧ (56 ≤ r → r ≤ 63 → out.consumed = r
        ∧ bytes = messageBytes mem cur r ++ 0x80 :: List.replicate (63 - r) 0x00)
      ∧ (1 ≤ r → r ≤ 55 → out.consumed = r
        ∧ bytes = messageBytes mem cur r ++ 0x80 :: List.replicate (55 - r) 0x00 ++ lengthField tbits
        ∧ wordAt out.block 14 = tbits.extractLsb' 32 32 ∧ wordAt out.block 15 = tbits.extractLsb' 0 32)
      ∧ (r = 0 → tbits.toNat % 512 = 0 → out.consumed = 0
        ∧ bytes = 0x80 :: List.replicate 55 0x00 ++ lengthField tbits ∧ wordAt out.block 0 = 0x80000000
        ∧ wordAt out.block 14 = tbits.extractLsb' 32 32 ∧ wordAt out.block 15 = tbits.extractLsb' 0 32)
      ∧ (r = 0 → tbits.toNat % 512 ≠ 0 → out.consumed = 0
        ∧ bytes = List.replicate 56 0x00 ++ lengthField tbits
        ∧ wordAt out.block 14 = tbits.extractLsb' 32 32 ∧ wordAt out.block 15 = tbits.extractLsb' 0 32)

/-- R157: the block count in both forms, and its largest value. -/
def Obligations.BlockCountIsExactCeiling : Prop :=
  (∀ len : Nat, nBlocks len = (len + 72) / 64 ∧ 512 * (nBlocks len - 1) < 8 * len + 65
      ∧ 8 * len + 65 ≤ 512 * nBlocks len)
    ∧ nBlocks 0 = 1 ∧ nBlocks 55 = 1 ∧ nBlocks 56 = 2 ∧ nBlocks 64 = 2 ∧ nBlocks 119 = 2 ∧ nBlocks 120 = 3
    ∧ nBlocks (2 ^ 61 - 1) = 2 ^ 55 + 1

/-- R158: the blocks of a message, as bytes, are the message, the marker, the fewest zeros, and the bit length. -/
def Obligations.BlocksArePaddedMessage : Prop :=
  ∀ (mem : Memory) (base len : Nat), len ≤ 2 ^ 61 - 1 →
    (messageBlocks mem base len).length = nBlocks len
      ∧ ((messageBlocks mem base len).map Filled.consumed).sum = len
      ∧ ∃ z : Nat, z < 64 ∧ (len + 1 + z) % 64 = 56
        ∧ (messageBlocks mem base len).flatMap (fun r => wordsToBytes r.block.toList) =
          messageBytes mem base len ++ 0x80 :: List.replicate z 0x00 ++ lengthField (BitVec.ofNat 64 (8 * len))

/-- R156: FILL, where it completes and where it faults. `CUR` has its new value whenever 64 bits hold it
(notes/assumptions/3.md). Its reads lie inside the message memory in every state of the invariant
(notes/assumptions/6.md). -/
def Obligations.FillMaterialisesBlock : Prop :=
  encode .fill = 0x00000003
    ∧ (∀ (s : State) (x : Ctx), s.ctx = some x → x.bcnt ≠ x.nblk →
      (x.rem = 0 ∨ x.cur.toNat + min x.rem.toNat 64 ≤ s.memBytes) →
      ∃ t y, exec .fill s = .next t ∧ t.ctx = some y
        ∧ (∀ i : Fin 16, t.m[i] = some (fill s.mem x.cur.toNat x.rem.toNat x.tbits).block[i])
        ∧ (x.cur.toNat + min x.rem.toNat 64 < 2 ^ 64 → y.cur.toNat = x.cur.toNat + min x.rem.toNat 64)
        ∧ y.rem.toNat = x.rem.toNat - min x.rem.toNat 64 ∧ y.lastc.toNat = min x.rem.toNat 64 ∧ y.bcnt = x.bcnt + 1
        ∧ y.tbits = x.tbits ∧ y.nblk = x.nblk ∧ t.h = s.h ∧ t.phase = s.phase ∧ t.w = s.w ∧ t.cv = s.cv
        ∧ sameDescriptor s t ∧ t.eqFlag = s.eqFlag ∧ sameRecord s t ∧ sameOutside s t)
    ∧ ∀ s : State, s.fault = false →
      (s.ctx = none → ∃ t, exec .fill s = .next t ∧ recordsFault s .uninitRead 0x020 t)
        ∧ ∀ x, s.ctx = some x → x.bcnt = x.nblk →
          ∃ t, exec .fill s = .next t ∧ recordsFault s .overrun 0x00000003 t

/-- The model's own choice (notes/assumptions/6.md): FILL stops where its context would read outside the memory. -/
def Obligations.FillStopsOutsideMemory : Prop :=
  ∀ (s : State) (x : Ctx), s.ctx = some x → x.bcnt ≠ x.nblk → x.rem ≠ 0 →
    s.memBytes < x.cur.toNat + min x.rem.toNat 64 →
    ∃ a, exec .fill s = .fault (.noSuchAddress a) ∧ s.memBytes ≤ a ∧ a < x.cur.toNat + min x.rem.toNat 64

/-! ### Driver -/

/-- R171: INIT. -/
def Obligations.InitBeginsDigest : Prop :=
  encode .init = 0x00000001 ∧ ∀ s : State, ∃ t, exec .init s = .next t ∧ (∀ j : Fin 8, t.h[j] = some IV[j])
    ∧ t.phase = .initialized ∧ t.ctx = s.ctx ∧ t.m = s.m ∧ t.w = s.w ∧ t.cv = s.cv ∧ sameDescriptor s t ∧ t.eqFlag = s.eqFlag
    ∧ sameRecord s t ∧ sameOutside s t ∧ t.freeCount = s.freeCount ∧ exec .init t = .next t
    ∧ (s = State.reset → t.status = 0x00000001)

/-- R172: LOAD, where it completes and where it faults. -/
def Obligations.LoadSetsContext : Prop :=
  encode .load = 0x00000002
    ∧ (∀ (s : State) (base len : DWord), loadable s base len →
      ∃ t x, exec .load s = .next t ∧ t.ctx = some x ∧ x.cur = base ∧ x.rem = len
        ∧ x.tbits.toNat = 8 * len.toNat ∧ x.nblk.toNat = nBlocks len.toNat ∧ x.bcnt = 0 ∧ x.lastc = 0
        ∧ t.msgv = true ∧ t.last = false ∧ t.h = s.h ∧ t.phase = s.phase ∧ t.m = s.m ∧ t.w = s.w ∧ t.cv = s.cv
        ∧ sameDescriptor s t ∧ t.eqFlag = s.eqFlag ∧ sameRecord s t ∧ sameOutside s t ∧ t.freeCount = s.freeCount)
    ∧ ∀ s : State, s.fault = false → loadCtxFaults .load s

/-- R174: DIGEST, its end state and where it faults. `CUR` is `base + len` whenever 64 bits hold it
(notes/assumptions/3.md). -/
def Obligations.DigestComputesDigest : Prop :=
  encode .digest = 0x00000006
    ∧ (∀ (s : State) (base len : DWord), loadable s base len →
      ∃ t x r, exec .digest s = .next t
        ∧ (∀ j : Fin 8, t.h[j] = some (digestOf s.mem base.toNat len.toNat)[j]) ∧ t.phase = .final
        ∧ t.ctx = some x ∧ (base.toNat + len.toNat < 2 ^ 64 → x.cur.toNat = base.toNat + len.toNat) ∧ x.rem = 0
        ∧ x.tbits.toNat = 8 * len.toNat ∧ x.nblk.toNat = nBlocks len.toNat ∧ x.bcnt = x.nblk ∧ t.last = true
        ∧ x.lastc.toNat =
          (if 1 ≤ len.toNat % 64 ∧ len.toNat % 64 ≤ 55 then len.toNat % 64 else 0)
        ∧ (messageBlocks s.mem base.toNat len.toNat).getLast? = some r
        ∧ (∀ i : Fin 16, t.m[i] = some r.block[i]) ∧ (∀ i : Fin 64, t.w[i] = some (schedule r.block)[i])
        ∧ t.cv = s.cv ∧ sameDescriptor s t ∧ t.eqFlag = s.eqFlag ∧ sameRecord s t ∧ sameOutside s t)
    ∧ ∀ s : State, s.fault = false → loadCtxFaults .digest s

/-- R175: the host-driven block loop ends as DIGEST does, but for `PHASE`. -/
def Obligations.HostLoopEqualsDigest : Prop :=
  ∀ (s : State) (base len : DWord), s.fault = false → loadable s base len →
    ∃ t u, execAll (hostLoop (nBlocks len.toNat)) s = .next t ∧ exec .digest s = .next u ∧ t.h = u.h
      ∧ t.ctx = u.ctx ∧ t.m = u.m ∧ t.w = u.w ∧ t.phase = .updated ∧ u.phase = .final
      ∧ t = { u with phase := .updated }

/-- R173: the digest depends on the message bytes and the length only, not on the address or on other bytes. -/
def Obligations.DigestDependsOnMessageOnly : Prop :=
  ∀ (mem mem' : Memory) (base base' len : Nat), (∀ k, k < len → mem.read (base + k) = mem'.read (base' + k)) →
    digestOf mem base len = digestOf mem' base' len

/-- R173: a second DIGEST of the same message gives the same hash. -/
def Obligations.DigestAgainGivesSameHash : Prop :=
  ∀ s t : State, exec .digest s = .next t → t.fault = false →
    ∃ u, exec .digest t = .next u ∧ u.h = t.h ∧ u.m = t.m ∧ u.w = t.w ∧ u.phase = t.phase ∧ sameRecord t u

/-- R176: CMP, where it completes and where it faults. -/
def Obligations.CmpComparesHash : Prop :=
  encode .cmp = 0x00000007
    ∧ (∀ (s : State) (hs cv : Vector Word 8), s.phase ≠ .uninit → (∀ j : Fin 8, s.h[j] = some hs[j]) →
      (∀ j : Fin 8, s.cv[j] = some cv[j]) →
      ∃ t, exec .cmp s = .next t ∧ (t.eqFlag = true ↔ ∀ j : Fin 8, hs[j] = cv[j])
        ∧ (t.eqFlag = true ↔ digestBytes hs = digestBytes cv) ∧ t.h = s.h ∧ t.phase = s.phase
        ∧ t.ctx = s.ctx ∧ t.m = s.m ∧ t.w = s.w ∧ t.cv = s.cv ∧ sameDescriptor s t ∧ sameRecord s t
        ∧ sameOutside s t ∧ t.freeCount = s.freeCount)
    ∧ ∀ s : State, s.fault = false →
      (s.phase = .uninit → ∃ t, exec .cmp s = .next t ∧ recordsFault s .uninitRead 0x080 t)
        ∧ ∀ j : Fin 8, s.phase ≠ .uninit → lowestUnwritten s.cv j →
          ∃ t, exec .cmp s = .next t ∧ recordsFault s .uninitRead (BitVec.ofNat 32 (0x0A0 + 4 * j.val)) t

/-- R54, R176: the digest is 32 bytes, and equal bytes are equal words. -/
def Obligations.ByteEqualityIsWordEquality : Prop :=
  ∀ a b : Vector Word 8, (digestBytes a).length = 32 ∧ (digestBytes a = digestBytes b ↔ a = b)

/-- The model's own reading of R15 and R203 (notes/assumptions/7.md), for states that no run reaches (R28): a hash
word that holds ⊥ outside `UNINIT` faults where COMPRESS or CMP reads it, after the other checks. -/
def Obligations.UnwrittenHashWordFaults : Prop :=
  ∀ (s : State) (j : Fin 8), s.fault = false → s.phase ≠ .uninit → lowestUnwritten s.h j →
    (s.phase ≠ .final → (∀ i : Fin 16, s.m[i] ≠ none) → ∃ t, exec .compress s = .next t
      ∧ recordsFault s .uninitRead (BitVec.ofNat 32 (0x080 + 4 * j.val)) t)
      ∧ ((∀ i : Fin 8, s.cv[i] ≠ none) → ∃ t, exec .cmp s = .next t
        ∧ recordsFault s .uninitRead (BitVec.ofNat 32 (0x080 + 4 * j.val)) t)

/-! ### Rules over all commands -/

/-- R83, the column of writes: no command changes anything else, and one that does not fault leaves the fault record. -/
def Obligations.CommandsWriteOnlyTheirState : Prop :=
  ∀ (i : Instr) (s t : State), exec i s = .next t →
    ((i = .load ∨ i = .fill ∨ i = .sched ∨ i = .cmp) → t.h = s.h ∧ t.phase = s.phase)
      ∧ ((i = .init ∨ i = .sched ∨ i = .compress ∨ i = .cmp) → t.ctx = s.ctx)
      ∧ ((i = .init ∨ i = .load ∨ i = .sched ∨ i = .compress ∨ i = .cmp) → t.m = s.m)
      ∧ ((i = .init ∨ i = .load ∨ i = .fill ∨ i = .cmp) → t.w = s.w)
      ∧ (i = .fill → ∀ x, s.ctx = some x → ∃ y, t.ctx = some y ∧ y.tbits = x.tbits ∧ y.nblk = x.nblk)
      ∧ (i = .fill → s.ctx = none → t.ctx = none)
      ∧ (t.fault = s.fault → sameRecord s t)
      ∧ (i ≠ .cmp → t.eqFlag = s.eqFlag)
      ∧ ((i ≠ .fill ∧ i ≠ .digest) → t.freeCount = s.freeCount)
      ∧ t.cv = s.cv ∧ sameDescriptor s t ∧ sameOutside s t ∧ t.mem = s.mem

/-- R83, the column of reads: what a command writes depends on the state it reads alone (with the size of the memory
and the count of free values, which stand for parameters of the model). -/
def Obligations.CommandsReadOnlyTheirOperands : Prop :=
  ∀ (i : Instr) (s s' t : State), s.fault = false → s'.fault = false → exec i s = .next t → t.fault = false →
    (i = .init → ∃ t', exec i s' = .next t' ∧ t'.fault = false ∧ t'.h = t.h ∧ t'.phase = t.phase)
      ∧ (i = .load → sameDescriptor s s' → s'.memLast = s.memLast →
        ∃ t', exec i s' = .next t' ∧ t'.fault = false ∧ t'.ctx = t.ctx)
      ∧ (i = .fill → s'.ctx = s.ctx → s'.mem = s.mem → s'.memLast = s.memLast → s'.freeCount = s.freeCount →
        ∃ t', exec i s' = .next t' ∧ t'.fault = false ∧ t'.m = t.m ∧ t'.ctx = t.ctx)
      ∧ (i = .sched → s'.m = s.m → ∃ t', exec i s' = .next t' ∧ t'.fault = false ∧ t'.w = t.w)
      ∧ (i = .compress → s'.phase = s.phase → s'.h = s.h → s'.m = s.m →
        ∃ t', exec i s' = .next t' ∧ t'.fault = false ∧ t'.w = t.w ∧ t'.h = t.h ∧ t'.phase = t.phase)
      ∧ (i = .digest → sameDescriptor s s' → s'.mem = s.mem → s'.memLast = s.memLast → s'.freeCount = s.freeCount →
        ∃ t', exec i s' = .next t' ∧ t'.fault = false ∧ t'.h = t.h ∧ t'.phase = t.phase ∧ t'.ctx = t.ctx
          ∧ t'.m = t.m ∧ t'.w = t.w)
      ∧ (i = .cmp → s'.phase = s.phase → s'.h = s.h → s'.cv = s.cv →
        ∃ t', exec i s' = .next t' ∧ t'.fault = false ∧ t'.eqFlag = t.eqFlag)

/-- R33: the flag `EQ`. -/
def Obligations.OnlyCmpWritesEq : Prop :=
  (∀ (i : Instr) (s t : State), exec i s = .next t → i ≠ .cmp → t.eqFlag = s.eqFlag)
    ∧ (∀ s t : State, exec .cmp s = .next t → t.fault = false → (t.eqFlag = true ↔ ∀ j : Fin 8, t.h[j] = t.cv[j]))
    ∧ (∀ s : State, s.status.getLsbD 3 = s.eqFlag) ∧ State.reset.eqFlag = false

/-- R170: every change of `PHASE`. -/
def Obligations.PhaseChangesByTable : Prop :=
  (∀ (i : Instr) (s t : State), s.fault = false → exec i s = .next t →
      (t.fault = true → t.phase = s.phase)
        ∧ (t.fault = false → t.phase =
          match i with
          | .init => .initialized
          | .compress => .updated
          | .digest => .final
          | .load => s.phase
          | .fill => s.phase
          | .sched => s.phase
          | .cmp => s.phase))
    ∧ (∀ s : State, s.fault = false → s.phase = .uninit →
      ∃ t, exec .compress s = .next t ∧ t.phase = .uninit ∧ t.cause = .uninitRead)
    ∧ (∀ s : State, s.fault = false → s.phase = .final →
      ∃ t, exec .compress s = .next t ∧ t.phase = .final ∧ t.cause = .finalized)
    ∧ (∀ (s t : State) (off : BitVec 12), hostAccess (.read off) s = .next t → t.phase = s.phase)
    ∧ (∀ (s t : State) (off : BitVec 12) (v : Word), off ≠ 0x000 → hostAccess (.write off v) s = .next t →
      t.phase = s.phase)
    ∧ (∀ (s t : State) (v : Word), (∀ i, decode v ≠ .ok i) → hostAccess (.write 0x000 v) s = .next t →
      t.phase = s.phase)
    ∧ ∀ s : State, s.applyReset.phase = .uninit

/-- R210: fault entry writes the fault record and nothing else, for every command and every host access. -/
def Obligations.FaultsArePrecise : Prop :=
  (∀ (i : Instr) (s t : State), s.fault = false → exec i s = .next t → t.fault = true →
      recordsFault s t.cause t.finfo t ∧ t.cause ≠ .noFault)
    ∧ (∀ (off : BitVec 12) (v : Word) (s t : State), s.fault = false → hostWrite off v s = .next t → t.fault = true →
      recordsFault s t.cause t.finfo t ∧ t.cause ≠ .noFault)
    ∧ (∀ (off : BitVec 12) (s : State), s.fault = false → (hostRead off s).1.fault = true →
      recordsFault s (hostRead off s).1.cause (hostRead off s).1.finfo (hostRead off s).1
        ∧ (hostRead off s).1.cause ≠ .noFault ∧ (hostRead off s).2 = none)
    ∧ ∀ (c : Cause) (info : Word) (s : State), (s.fault = true → s.raise c info = s)
      ∧ (s.fault = false → recordsFault s c info (s.raise c info))

/-- R212: nothing but reset ends a fault or changes a register while it stands, and the record keeps the first fault. -/
def Obligations.FaultStandsUntilReset : Prop :=
  ∀ s t : State, s.fault = true → (∀ rest, s.pending ≠ .reset :: rest) → step s = .next t →
    sameRecord s t ∧ sameRegisters s t ∧ t.freeCount = s.freeCount

/-- R179 and R51, in every state of the invariant: every command completes, none stops the model, and none reads the
message memory outside its `P_MEM_BYTES` bytes: with any memory that has the same bytes inside, it does the same. -/
def Obligations.EveryCommandCompletes : Prop :=
  ∀ (i : Instr) (s : State), s.Inv → ∃ t, exec i s = .next t
    ∧ ∀ mem : Memory, (∀ a, a < s.memBytes → mem.read a = s.mem.read a) → exec i (s.setMem mem) = .next (t.setMem mem)

/-! ### Register window -/

/-- R57, R61, R202: the offsets a host access may use, by the ranges of R60; every other access is a bad access. -/
def Obligations.AccessOutsideMapIsBad : Prop :=
  ∀ (s : State) (off : BitVec 12) (v : Word), s.fault = false →
    (¬(off.toNat % 4 = 0 ∧ (off.toNat = 0x000 ∨ (0x010 ≤ off.toNat ∧ off.toNat ≤ 0x01C)
        ∨ (0x0A0 ≤ off.toNat ∧ off.toNat ≤ 0x0FC))) →
      ∃ t, hostWrite off v s = .next t ∧ recordsFault s .badAccess (0x80000000 ||| off.setWidth 32) t)
      ∧ (¬(off.toNat % 4 = 0 ∧ (off.toNat = 0x004 ∨ off.toNat = 0x008 ∨ (0x010 ≤ off.toNat ∧ off.toNat ≤ 0x048)
          ∨ (0x080 ≤ off.toNat ∧ off.toNat ≤ 0x31C))) →
        ∃ t, hostRead off s = (t, none) ∧ recordsFault s .badAccess (off.setWidth 32) t)

/-- R63: what a host write stores, and that it changes nothing else. -/
def Obligations.HostWriteStoresOneRegister : Prop :=
  ∀ (s : State) (v : Word), s.fault = false →
    hostWrite 0x010 v s = .next { s with msgBaseLo := some v } ∧ hostWrite 0x014 v s = .next { s with msgBaseHi := some v }
      ∧ hostWrite 0x018 v s = .next { s with msgLenLo := some v }
      ∧ hostWrite 0x01C v s = .next { s with msgLenHi := some v }
      ∧ (∀ j : Fin 8, ∃ t, hostWrite (BitVec.ofNat 12 (0x0A0 + 4 * j.val)) v s = .next t ∧ t.cv[j] = some v
        ∧ (∀ k : Fin 8, k ≠ j → t.cv[k] = s.cv[k]) ∧ t = { s with cv := t.cv })
      ∧ ∀ i : Fin 16, ∃ t, hostWrite (BitVec.ofNat 12 (0x0C0 + 4 * i.val)) v s = .next t ∧ t.m[i] = some v
        ∧ (∀ k : Fin 16, k ≠ i → t.m[k] = s.m[k]) ∧ t = { s with m := t.m }

/-- R59, R64, R66: a read of a register that holds a word returns it and changes nothing; of one that holds ⊥, it
returns no data and records `UNINIT_READ`; and every register that R66 names, at its offset in R60. -/
def Obligations.HostReadReturnsWordOrFaults : Prop :=
  (∀ (r : Reg) (s : State), r ≠ .cmd →
    (∀ v, r.content s = some v → hostRead r.offset s = (s, some v))
      ∧ (r.content s = none → s.fault = false →
        ∃ t, hostRead r.offset s = (t, none) ∧ recordsFault s .uninitRead (r.offset.setWidth 32) t))
    ∧ (∀ (s : State) (j : Fin 8), s.Inv → s.phase = .uninit → (Reg.h j).content s = none)
    ∧ (∀ s : State, s.ctx = none →
      ∀ r ∈ [Reg.curLo, .curHi, .remLo, .remHi, .tbitsLo, .tbitsHi, .nblkLo, .nblkHi, .bcntLo, .bcntHi, .lastc],
        r.content s = none)
    ∧ ∀ s : State, s.fault = false →
      (∀ j : Fin 8, s.h[j] = none → readsNothing s (0x080 + 4 * j.val))
        ∧ (∀ j : Fin 8, s.cv[j] = none → readsNothing s (0x0A0 + 4 * j.val))
        ∧ (∀ i : Fin 16, s.m[i] = none → readsNothing s (0x0C0 + 4 * i.val))
        ∧ (∀ i : Fin 64, s.w[i] = none → readsNothing s (0x100 + 4 * i.val))
        ∧ (s.msgBaseLo = none → readsNothing s 0x010) ∧ (s.msgBaseHi = none → readsNothing s 0x014)
        ∧ (s.msgLenLo = none → readsNothing s 0x018) ∧ (s.msgLenHi = none → readsNothing s 0x01C)
        ∧ (s.ctx = none → ∀ k : Fin 11, readsNothing s (0x020 + 4 * k.val))

/-- R60: the contents of the message descriptor, the register files and `FINFO` at the offsets of the map. -/
def Obligations.RegisterFilesReadByOffset : Prop :=
  ∀ s : State,
    (∀ (j : Fin 8) (v : Word), s.h[j] = some v → hostRead (BitVec.ofNat 12 (0x080 + 4 * j.val)) s = (s, some v))
      ∧ (∀ (j : Fin 8) (v : Word), s.cv[j] = some v → hostRead (BitVec.ofNat 12 (0x0A0 + 4 * j.val)) s = (s, some v))
      ∧ (∀ (i : Fin 16) (v : Word), s.m[i] = some v → hostRead (BitVec.ofNat 12 (0x0C0 + 4 * i.val)) s = (s, some v))
      ∧ (∀ (i : Fin 64) (v : Word), s.w[i] = some v → hostRead (BitVec.ofNat 12 (0x100 + 4 * i.val)) s = (s, some v))
      ∧ (∀ i : Fin 64, hostRead (BitVec.ofNat 12 (0x200 + 4 * i.val)) s = (s, some K[i]))
      ∧ (∀ j : Fin 8, hostRead (BitVec.ofNat 12 (0x300 + 4 * j.val)) s = (s, some IV[j]))
      ∧ hostRead 0x008 s = (s, some s.finfo)
      ∧ (∀ v, s.msgBaseLo = some v → hostRead 0x010 s = (s, some v))
      ∧ (∀ v, s.msgBaseHi = some v → hostRead 0x014 s = (s, some v))
      ∧ (∀ v, s.msgLenLo = some v → hostRead 0x018 s = (s, some v))
      ∧ ∀ v, s.msgLenHi = some v → hostRead 0x01C s = (s, some v)

/-- R60, R65: the two halves of a `CTX` field read separately are halves of one value. -/
def Obligations.ContextHalvesReadTogether : Prop :=
  ∀ (s : State) (x : Ctx), s.ctx = some x →
    (∃ lo hi, hostRead 0x020 s = (s, some lo) ∧ hostRead 0x024 s = (s, some hi) ∧ hi ++ lo = x.cur)
      ∧ (∃ lo hi, hostRead 0x028 s = (s, some lo) ∧ hostRead 0x02C s = (s, some hi) ∧ hi ++ lo = x.rem)
      ∧ (∃ lo hi, hostRead 0x030 s = (s, some lo) ∧ hostRead 0x034 s = (s, some hi) ∧ hi ++ lo = x.tbits)
      ∧ (∃ lo hi, hostRead 0x038 s = (s, some lo) ∧ hostRead 0x03C s = (s, some hi) ∧ hi ++ lo = x.nblk)
      ∧ (∃ lo hi, hostRead 0x040 s = (s, some lo) ∧ hostRead 0x044 s = (s, some hi) ∧ hi ++ lo = x.bcnt)
      ∧ ∃ v, hostRead 0x048 s = (s, some v) ∧ v.toNat = x.lastc.toNat

/-- R29: `STATUS`, with the codes of R28 and R200 as numbers. -/
def Obligations.StatusShowsControlState : Prop :=
  (∀ s : State,
      s.status.extractLsb' 0 2 =
        (match s.phase with
        | .uninit => 0
        | .initialized => 1
        | .updated => 2
        | .final => 3)
      ∧ s.status.extractLsb' 8 4 =
        (match s.cause with
        | .noFault => 0
        | .illegalCmd => 1
        | .badAccess => 2
        | .uninitRead => 3
        | .length => 4
        | .range => 5
        | .overrun => 6
        | .finalized => 7)
      ∧ s.status.getLsbD 2 = s.fault
      ∧ s.status.getLsbD 3 = s.eqFlag ∧ (s.status.getLsbD 4 = true ↔ s.ctx ≠ none)
      ∧ (s.status.getLsbD 5 = true ↔ ∃ x, s.ctx = some x ∧ x.bcnt = x.nblk) ∧ s.status.extractLsb' 6 2 = 0
      ∧ s.status.extractLsb' 12 20 = 0
      ∧ hostRead 0x004 s = (s, some s.status))
    ∧ (∀ (s : State) (v : Word), s.fault = false →
      ∃ t, hostWrite 0x004 v s = .next t ∧ recordsFault s .badAccess 0x80000004 t)
    ∧ State.reset.status = 0

/-- R67: host accesses while a fault is recorded. -/
def Obligations.FaultedCoreIgnoresWrites : Prop :=
  ∀ s : State, s.fault = true →
    (∀ (off : BitVec 12) (v : Word), hostWrite off v s = .next s)
      ∧ (∀ (r : Reg) (v : Word), r ≠ .cmd → r.content s = some v → hostRead r.offset s = (s, some v))
      ∧ (∀ off : BitVec 12, (hostRead off s).1 = s)
      ∧ (∀ r : Reg, r.content s = none → (hostRead r.offset s).2 = none)
      ∧ (∀ off : BitVec 12, regAt off = none → (hostRead off s).2 = none)
      ∧ (Reg.status.content s ≠ none ∧ Reg.finfo.content s ≠ none)

/-- R89: the pseudo-instruction `SETMSG` sets the descriptor and nothing else. -/
def Obligations.SetmsgSetsDescriptor : Prop :=
  ∀ (s : State) (base len : DWord), s.fault = false →
    ∃ t, accessAll (Stmt.setmsg base len).expand s = .next t ∧ describes t base len ∧ t.h = s.h ∧ t.m = s.m
      ∧ t.w = s.w ∧ t.cv = s.cv ∧ t.ctx = s.ctx ∧ t.phase = s.phase ∧ t.eqFlag = s.eqFlag ∧ sameRecord s t
      ∧ sameOutside s t ∧ t.freeCount = s.freeCount

/-- R87, R88: a transaction as it is written is the statement that stands for it, whatever its offset and data. -/
def Obligations.WrittenTransactionsReadBack : Prop := ∀ a : Access, parseLine a.text = some [.raw a]

/-! ### The step -/

/-- R81, R63: a step whose event is a command word runs the decoded command, the event taken off the host's list. -/
def Obligations.StepRunsDecodedCommand : Prop :=
  ∀ (s : State) (v : Word) (rest : List HostEvent) (i : Instr), s.pending = .access (.write 0x000 v) :: rest →
    s.fault = false → decode v = .ok i → i.wf = true → step s = exec i (s.setPending rest)

/-- R81, R37: the command word placed by `withFetchWord` is the one that the next step runs. -/
def Obligations.FetchedWordRunsNext : Prop :=
  ∀ (s : State) (i : Instr), s.fault = false → step (s.withFetchWord 32 (encode i).toNat) = exec i s

/-- R222, R231, and the model's own reading of them (notes/assumptions/4.md): with no host event an instance waits. -/
def Obligations.IdleInstanceWaits : Prop := ∀ s : State, s.pending = [] → step s = .next s

/-! ### The invariant -/

/-- R27, R28, R31: the invariant holds after reset. -/
def Obligations.InvariantHoldsAtReset : Prop := State.reset.Inv

/-- R24, R27, R28, R31: every step keeps the invariant, whatever the host does. -/
def Obligations.StepKeepsInvariant : Prop := ∀ s t : State, s.Inv → step s = .next t → t.Inv

/-- R51: in a state of the invariant only a host write outside the message memory stops the model
(notes/assumptions/5.md); no step of any state is a refusal. -/
def Obligations.OnlyOutsidePokeStops : Prop :=
  (∀ (s : State) (e : Fault), s.Inv → step s = .fault e →
      ∃ addr b rest, s.pending = .poke addr b :: rest ∧ s.memBytes ≤ addr.toNat)
    ∧ ∀ (s : State) (r : Refusal), step s ≠ .refused r

/-! ### The message memory -/

/-- The canonical form of the model's memory (notes/assumptions/2.md): memories that read alike are equal. -/
def Obligations.EqualContentsAreEqualMemories : Prop :=
  ∀ mem mem' : Memory, mem.wf → mem'.wf → (∀ a, mem.read a = mem'.read a) → mem = mem'

/-- R50, R69: a host write of the message memory is seen by every later read, changes no other byte, and touches no
register; outside the memory it stops the model (notes/assumptions/5.md). -/
def Obligations.HostPokeChangesOneByte : Prop :=
  ∀ (s : State) (addr : DWord) (b : Byte) (rest : List HostEvent), s.mem.wf → s.pending = .poke addr b :: rest →
    (addr.toNat < s.memBytes → ∃ t, step s = .next t ∧ t.mem.read addr.toNat = b
      ∧ (∀ a, a ≠ addr.toNat → t.mem.read a = s.mem.read a) ∧ t.mem.wf ∧ sameRegisters s t ∧ sameRecord s t
      ∧ t.memLast = s.memLast ∧ t.pending = rest ∧ t.results = s.results ∧ t.freeCount = s.freeCount)
      ∧ (s.memBytes ≤ addr.toNat → step s = .fault (.noSuchAddress addr.toNat))

/-! ### The platform -/

/-- R39, R71, R220: instance `k` steps as it would alone and changes no other instance, but for the message memory
where that is shared, which is then the memory that instance `k` leaves; and it leaves it as it was, but for the one
byte of a host write. -/
def Obligations.InstancesDoNotInteract : Prop :=
  ∀ (p q : Platform) (k j : Nat) (s u : State), j ≠ k → Platform.step k p = .next q → p.insts[j]? = some s →
    p.insts[k]? = some u → ∃ t, Machine.step u = .next t ∧ q.insts[k]? = some t ∧ q.insts.length = p.insts.length
      ∧ q.sharedMem = p.sharedMem
      ∧ (p.sharedMem = false → q.insts[j]? = some s) ∧ (p.sharedMem = true → q.insts[j]? = some (s.setMem t.mem))
      ∧ (noPoke u → t.mem = u.mem)
      ∧ ∀ addr b rest, u.pending = .poke addr b :: rest → u.mem.wf → t.mem.read addr.toNat = b
        ∧ ∀ a, a ≠ addr.toNat → t.mem.read a = u.mem.read a

/-- R71: two instances reach the same platform in either order, as long as the host writes no message memory. -/
def Obligations.InstancesCommute : Prop :=
  ∀ (p q : Platform) (j k : Nat) (s u : State), j ≠ k → p.insts[j]? = some s → p.insts[k]? = some u → noPoke s →
    noPoke u → (p.sharedMem = true → ∀ a ∈ p.insts, ∀ b ∈ p.insts, a.mem = b.mem) →
    Platform.run [j, k] p = .next q → Platform.run [k, j] p = .next q
end

