-- ==== Sys2Proof/Tests/Slice0.lean ====
section
/-! SUPPORT. Small tests whose expected values stand in the spec, and for every statement with hypotheses a named
witness that meets them. -/

namespace Sys2Proof.Tests

open Sys2Proof Sys2Proof.Machine

set_option maxRecDepth 100000

/-! ### Helpers -/

/-- An instance after reset with 4096 bytes of message memory, as spec/95_test_vectors.md section 2.7 takes it. -/
def base : State := { State.reset with memLast := 4095 }

/-- `base` with the descriptor of a message. -/
def message (mem : Memory) (addr len : DWord) : State :=
  { base with
    mem := mem
    msgBaseLo := some (addr.extractLsb' 0 32), msgBaseHi := some (addr.extractLsb' 32 32)
    msgLenLo := some (len.extractLsb' 0 32), msgLenHi := some (len.extractLsb' 32 32) }

/-- The bytes of "abc" at address 0. -/
def abcMem : Memory := [(0, 0x61), (1, 0x62), (2, 0x63)]

/-- The descriptor of "abc". -/
def abc : State := message abcMem 0 3

/-- The message context after `LOAD` of "abc". -/
def abcCtx : Ctx := { cur := 0, rem := 3, tbits := 24, nblk := 1, bcnt := 0, lastc := 0 }

/-- A state with the block of "abc" in `M`, the initial words in `H` and the phase `INITIALIZED`. -/
def ready : State := { base with h := written IV, m := written abcWords, phase := .initialized }

/-- A state with the digest of "abc" in `H` and in `CV`. -/
def hashed : State := { base with h := written abcDigest, cv := written abcDigest, phase := .final }

/-- A state in which the fault F1 of spec/95_test_vectors.md stands. -/
def faulted : State := { base with fault := true, cause := .illegalCmd, finfo := 0 }

/-- A next state that passes a check. -/
def nextIs (o : Host.Outcome State Fault Refusal) (p : State → Bool) : Bool :=
  match o with
  | .next t => p t
  | .fault _ => false
  | .refused _ => false

theorem exists_of_nextIs {o : Host.Outcome State Fault Refusal} {p : State → Bool} (h : nextIs o p = true) :
    ∃ t, o = .next t ∧ p t = true := by
  cases o <;> simp_all [nextIs]

/-- The fault record after an outcome. -/
def record (o : Host.Outcome State Fault Refusal) : Option (Bool × Cause × Word × Word) :=
  match o with
  | .next t => some (t.fault, t.cause, t.finfo, t.status)
  | .fault _ => none
  | .refused _ => none

/-! ### Encoding: the words of R80 and R82 written bit by bit, `RSVD` (24 bits) then `OP` (8 bits) -/

theorem test_decode_init : decode 0b00000000_00000000_00000000_00000001 = .ok .init := by decide
theorem test_decode_load : decode 0b00000000_00000000_00000000_00000010 = .ok .load := by decide
theorem test_decode_fill : decode 0b00000000_00000000_00000000_00000011 = .ok .fill := by decide
theorem test_decode_sched : decode 0b00000000_00000000_00000000_00000100 = .ok .sched := by decide
theorem test_decode_compress : decode 0b00000000_00000000_00000000_00000101 = .ok .compress := by decide
theorem test_decode_digest : decode 0b00000000_00000000_00000000_00000110 = .ok .digest := by decide
theorem test_decode_cmp : decode 0b00000000_00000000_00000000_00000111 = .ok .cmp := by decide

/-- R81: `RSVD` is looked at before `OP`. -/
theorem test_decode_order : decode 0x80000006 = .error .reservedBitsSet ∧ decode 0x00000100 = .error .reservedBitsSet
    ∧ decode 0x00000008 = .error .unknownOpcode ∧ decode 0x000000ff = .error .unknownOpcode := by decide

theorem test_decodeTableWord : decodeTableWord 32 6 = some .digest ∧ decodeTableWord 8 6 = some .digest
    ∧ decodeTableWord 32 0x106 = none := by decide

/-! ### Well-formedness refuses -/

theorem test_wf_reserved : commandWordWf 0x00000101 = false ∧ commandWordWf 0x80000006 = false := by decide
theorem test_wf_opcode : commandWordWf 0x00000000 = false ∧ commandWordWf 0x00000008 = false
    ∧ commandWordWf 0x000000ff = false ∧ commandWordWf 0x00000007 = true := by decide
theorem test_wf_wrblk : (Stmt.wrblk (List.replicate 17 0)).wf = false ∧ (Stmt.wrblk (List.replicate 16 0)).wf = true := by
  decide
theorem test_wf_wrcv : (Stmt.wrcv (List.replicate 9 0)).wf = false ∧ (Stmt.wrcv (List.replicate 7 0)).wf = true := by
  decide
theorem test_wf_rdstatus : (Stmt.rdstatus .noData).wf = false ∧ (Stmt.rdstatus (.value 0x33)).wf = true := by decide

/-! ### Commands, one step each; the expected values are those of spec/95_test_vectors.md -/

/-- Section 2.6: INIT from reset. -/
theorem test_init : nextIs (exec .init base) fun t =>
    t.status == 0x00000001 && t.h[0] == some 0x6a09e667 && t.h[7] == some 0x5be0cd19 := by decide +kernel

/-- Section 2.5: LOAD of the longest message, in the largest memory. -/
theorem test_load_longest :
    nextIs (exec .load { message [] 0 0x1fffffffffffffff with memLast := 0xffffffffffffffff }) fun t =>
      t.status == 0x00000010 && Reg.nblkHi.content t == some 0x00800000 && Reg.nblkLo.content t == some 0x00000001
        && Reg.tbitsHi.content t == some 0xffffffff && Reg.tbitsLo.content t == some 0xfffffff8 := by decide +kernel

/-- Section 2.7, F42: the length is checked before the range. -/
theorem test_load_length_first : record (exec .load (message [] 0xffffffffffffffff 0x2000000000000000))
    = some (true, .length, 0x00000002, 0x00000404) := by decide +kernel

/-- Section 2.4: FILL of "abc". -/
theorem test_fill : nextIs (exec .fill { abc with ctx := some abcCtx }) fun t =>
    t.m == written abcWords && t.ctx == some { cur := 3, rem := 0, tbits := 24, nblk := 1, bcnt := 1, lastc := 3 }
      && t.status == 0x00000030 := by decide +kernel

/-- Section 2.7, F48: a second FILL of a one-block message. -/
theorem test_fill_overrun : record (exec .fill { base with ctx := some { abcCtx with rem := 0, tbits := 0, bcnt := 1 } })
    = some (true, .overrun, 0x00000003, 0x00000634) := by decide +kernel

/-- Section 2.2: words of the schedule of the "abc" block. -/
theorem test_sched : nextIs (exec .sched { base with m := written abcWords }) fun t =>
    t.w[0] == some 0x61626380 && t.w[17] == some 0x000f0000 && t.w[31] == some 0xd3b7973b
      && t.w[63] == some 0x12b1edeb := by decide +kernel

/-- Section 2.2: words of the schedule of the block of ones. -/
theorem test_sched_ones : nextIs (exec .sched { base with m := Vector.replicate 16 (some 0xffffffff) }) fun t =>
    t.w[16] == some 0x203ffffc && t.w[20] == some 0x1e869660 && t.w[63] == some 0x4bceaf09 := by decide +kernel

/-- Section 2.3: the feed-forward of the "abc" block from `IV`. -/
theorem test_compress : nextIs (exec .compress ready) fun t =>
    t.h == written abcDigest && t.phase == .updated && t.w[63] == some 0x12b1edeb := by decide +kernel

/-- Section 2.3: the zero block from the zero hash state. -/
theorem test_compress_zero :
    nextIs (exec .compress { ready with h := Vector.replicate 8 (some 0), m := Vector.replicate 16 (some 0) }) fun t =>
      t.h[0] == some 0x7ca51614 && t.h[7] == some 0xbf0be7a6 := by decide +kernel

/-- Section 2.6: DIGEST of "abc". -/
theorem test_digest : nextIs (exec .digest abc) fun t =>
    t.h == written abcDigest && t.status == 0x00000033 && t.ctx.map (·.lastc) == some 3 && t.m[15] == some 0x18
      && !t.fault := by decide +kernel

/-- Section 1.1, V1: DIGEST of the empty message, at the address past the last byte. -/
theorem test_digest_empty : nextIs (exec .digest (message [] 4096 0)) fun t =>
    t.h[0] == some 0xe3b0c442 && t.h[7] == some 0x7852b855 && t.ctx.map (·.cur) == some 4096 := by decide +kernel

/-- Section 2.7: CMP of equal words after a digest; `CTX` is ⊥ here, so MSGV and LAST read 0. -/
theorem test_cmp_equal : nextIs (exec .cmp hashed) fun t => t.eqFlag && t.status == 0x0000000b := by decide +kernel

/-- Section 2.6: one changed bit in one `CV[j]`. -/
theorem test_cmp_one_bit :
    nextIs (exec .cmp { hashed with cv := hashed.cv.set 7 (some 0xf20015ac), eqFlag := true }) fun t => !t.eqFlag := by
  decide +kernel

/-! ### Host accesses (spec/95_test_vectors.md sections 2.7 and 2.8) -/

/-- F3, F6, F9, F10, F15 and F21. -/
theorem test_access_faults :
    [hostAccess (.write 0x000 0xff) base, hostAccess (.read 0x000) base, hostAccess (.read 0x006) base,
      hostAccess (.write 0x0C2 0) base, hostAccess (.write 0x080 0) base.startHash,
      hostAccess (.read 0x080) base].map record =
    [some (true, .illegalCmd, 0x000000ff, 0x00000104), some (true, .badAccess, 0x00000000, 0x00000204),
      some (true, .badAccess, 0x00000006, 0x00000204), some (true, .badAccess, 0x800000c2, 0x00000204),
      some (true, .badAccess, 0x80000080, 0x00000205), some (true, .uninitRead, 0x00000080, 0x00000304)] := by
  decide +kernel

theorem test_read_constants : (hostRead 0x200 base).2 = some 0x428a2f98 ∧ (hostRead 0x2FC base).2 = some 0xc67178f2
    ∧ (hostRead 0x300 faulted).2 = some 0x6a09e667 ∧ (hostRead 0x31C base).2 = some 0x5be0cd19
    ∧ (hostRead 0x080 faulted).2 = none := by decide +kernel

/-- Programs P1 and P3, rows 1 and 7: transactions as they are written. -/
theorem test_transaction_text :
    (Stmt.hash 0 3).expand.map (fun a => String.ofList a.text) =
      ["W 010 00000000", "W 014 00000000", "W 018 00000003", "W 01C 00000000", "W 000 00000006"] := by decide +kernel

/-- Statements in the syntax of R88 and R89, with a comment and an empty line. -/
theorem test_assembler :
    parseProgram (["HASH 0, 3", "RDSTATUS = 0x33 ; after DIGEST", "", "RD NBLK_LO = 1", "WRCV 0xba7816bf, 0x8f01cfea",
        "CMP", "RD M[3] = no data", "WR CV[7], 12", "W 00E 00000000"].map String.toList) =
      some [.hash 0 3, .rdstatus (.value 0x33), .rd .nblkLo (.value 1), .wrcv [0xba7816bf, 0x8f01cfea], .command .cmp,
        .rd (.m 3) .noData, .wr (.cv 7) 12, .raw (.write 0x00E 0)] := by decide +kernel

/-- The spellings of notes/assumptions/18.md: an index with `0x`, no operand, a raw operand with `0x`. -/
theorem test_assembler_choices :
    (["RD M[0x3]", "WRBLK", "W 0x00E 0"].map fun l => parseLine l.toList) =
      [some [.rd (.m 3) .nothing], some [.wrblk []], none] := by decide +kernel

/-- Lines that are no statement: no such register, no operand, no such word, a missing comma, an expectation that R89
does not give, a value of more than 32 bits, an operand too many, a comma at the end. -/
theorem test_assembler_refuses :
    (["WR M[16], 0", "RD", "FOO", "WR M[3] 0", "RDSTATUS = no data", "WR CV[7], 0x100000000", "CMP 1",
        "WRBLK 1,"].map fun l =>
      parseLine l.toList) = List.replicate 8 none := by decide +kernel

/-- R52: the byte at the lower address is the more significant one. -/
theorem test_byte_order : packWord 0x61 0x62 0x63 0x80 = 0x61626380 := by decide

/-! ### Witnesses: for every statement with hypotheses, values that meet them, one for each clause -/

/-- A message of `len` bytes at `addr`, in a state with a fault-free record. -/
theorem describes_message (mem : Memory) (addr len : DWord) : describes (message mem addr len) addr len :=
  ⟨rfl, rfl, rfl, rfl⟩

theorem base_memBytes : base.memBytes = 4096 := by decide

theorem message_memBytes (mem : Memory) (addr len : DWord) : (message mem addr len).memBytes = 4096 := base_memBytes

/-- The last three bytes of the memory, and the empty message just past them: both ends of the range of R172. -/
theorem loadable_ends : loadable (message [] 4093 3) 4093 3 ∧ loadable (message [] 4096 0) 4096 0 :=
  ⟨⟨describes_message .., by decide, by decide⟩, ⟨describes_message .., by decide, by decide⟩⟩

/-- The longest message, in the largest memory. -/
theorem loadable_longest :
    loadable { message [] 0 0x1fffffffffffffff with memLast := 0xffffffffffffffff } 0 0x1fffffffffffffff :=
  ⟨⟨rfl, rfl, rfl, rfl⟩, by decide, by decide⟩

/-- A message that ends at the top of the largest memory: the case of notes/assumptions/3.md. -/
theorem loadable_top :
    loadable { message [] 0xffffffffffffffff 1 with memLast := 0xffffffffffffffff } 0xffffffffffffffff 1 :=
  ⟨⟨rfl, rfl, rfl, rfl⟩, by decide, by decide⟩

theorem witness_DecodeAndEncodeAgree : Instr.init.wf = true ∧ decode 7 = .ok .cmp := by decide

theorem witness_WordsAreCommandsOrIllegal :
    base.fault = false ∧ (0x80000006 : Word).extractLsb' 8 24 ≠ 0 ∧ (0x100 : Word).extractLsb' 8 24 ≠ 0
      ∧ (0 : Word).extractLsb' 0 8 = 0 ∧ 0x08 ≤ ((8 : Word).extractLsb' 0 8).toNat
      ∧ (7 : Word).extractLsb' 8 24 = 0 ∧ (7 : Word).extractLsb' 0 8 ≠ 0 ∧ ((7 : Word).extractLsb' 0 8).toNat < 0x08 := by
  decide

theorem witness_RegisterOffsetsAgree : regAt 0x000 = some .cmd ∧ regAt 0x31C = some (.iv 7) := by decide

theorem witness_ResetEventRestoresReset :
    { faulted with pending := [.reset, .access (.read 0x004)] }.pending = .reset :: [.access (.read 0x004)] := rfl

theorem witness_RotationAndShiftMoveBits : (1 ≤ 1 ∧ 1 ≤ 31 ∧ 0 < 32) ∧ (1 ≤ 31 ∧ 31 ≤ 31 ∧ 31 < 32) := by decide

theorem witness_ChoiceSelectsAndMajorityVotes : 0 < 32 ∧ 31 < 32 := by decide

theorem witness_ScheduleFollowsRecurrence : (0 < 16 ∧ 15 < 16) ∧ (16 ≤ 16 ∧ 16 < 64) ∧ (16 ≤ 63 ∧ 63 < 64) := by decide

theorem witness_SchedWritesSchedule : (∀ i : Fin 16, ready.m[i] = some abcWords[i]) ∧ base.fault = false
    ∧ lowestUnwritten base.m 0 ∧ lowestUnwritten { ready with m := ready.m.set 15 none }.m 15 := by
  unfold lowestUnwritten; decide +kernel

theorem witness_CompressFoldsBlock_completes : ready.phase = .initialized ∧ (∀ j : Fin 8, ready.h[j] = some IV[j])
    ∧ (∀ i : Fin 16, ready.m[i] = some abcWords[i]) ∧ { ready with phase := .updated }.phase = .updated := by
  decide +kernel

theorem witness_CompressFoldsBlock_faults : base.fault = false ∧ base.phase = .uninit ∧ hashed.fault = false
    ∧ hashed.phase = .final ∧ base.startHash.fault = false ∧ base.startHash.phase = .initialized
    ∧ lowestUnwritten base.startHash.m 0 ∧ lowestUnwritten { ready with m := ready.m.set 15 none }.m 15 := by
  unfold lowestUnwritten; decide +kernel

theorem witness_FillHasFiveCases : 64 ≤ 64 ∧ (56 ≤ 56 ∧ 56 ≤ 63) ∧ (56 ≤ 63 ∧ 63 ≤ 63) ∧ (1 ≤ 1 ∧ 1 ≤ 55)
    ∧ (1 ≤ 55 ∧ 55 ≤ 55) ∧ (512 : DWord).toNat % 512 = 0 ∧ (448 : DWord).toNat % 512 ≠ 0 := by decide

theorem witness_BlocksArePaddedMessage : 0 ≤ 2 ^ 61 - 1 ∧ 2 ^ 61 - 1 ≤ 2 ^ 61 - 1 := by decide

/-- The context of `LOAD` at both ends of the memory, and one that no FILL may follow. -/
theorem witness_FillMaterialisesBlock : abcCtx.bcnt ≠ abcCtx.nblk ∧ { abcCtx with rem := 0 }.rem = 0
    ∧ { abcCtx with cur := 4093 }.cur.toNat + min { abcCtx with cur := 4093 }.rem.toNat 64 ≤ base.memBytes
    ∧ abcCtx.cur.toNat + min abcCtx.rem.toNat 64 < 2 ^ 64
    ∧ base.fault = false ∧ base.ctx = none ∧ { abcCtx with bcnt := 1 }.bcnt = { abcCtx with bcnt := 1 }.nblk := by
  decide

theorem witness_FillStopsOutsideMemory : abcCtx.bcnt ≠ abcCtx.nblk ∧ { abcCtx with cur := 4094 }.rem ≠ 0
    ∧ base.memBytes < { abcCtx with cur := 4094 }.cur.toNat + min { abcCtx with cur := 4094 }.rem.toNat 64 := by decide

/-- The premises of the six clauses of `loadCtxFaults`, for LOAD and DIGEST alike. -/
theorem witness_LoadSetsContext_faults : base.fault = false ∧ base.msgBaseLo = none
    ∧ (base.setMsgBaseLo 0).msgBaseLo ≠ none ∧ (base.setMsgBaseLo 0).msgBaseHi = none
    ∧ ((base.setMsgBaseLo 0).setMsgBaseHi 0).msgBaseHi ≠ none ∧ ((base.setMsgBaseLo 0).setMsgBaseHi 0).msgLenLo = none
    ∧ (((base.setMsgBaseLo 0).setMsgBaseHi 0).setMsgLenLo 0).msgLenLo ≠ none
    ∧ (((base.setMsgBaseLo 0).setMsgBaseHi 0).setMsgLenLo 0).msgLenHi = none := by decide

theorem witness_LoadSetsContext_limits :
    (describes (message [] 0 0x2000000000000000) 0 0x2000000000000000 ∧ 2 ^ 61 - 1 < (0x2000000000000000 : DWord).toNat)
      ∧ (describes (message [] 0xFFE 3) 0xFFE 3 ∧ (3 : DWord).toNat ≤ 2 ^ 61 - 1
        ∧ (message [] 0xFFE 3).memBytes < (0xFFE : DWord).toNat + (3 : DWord).toNat)
      ∧ describes (message [] 0x1001 0) 0x1001 0 ∧ (0 : DWord).toNat ≤ 2 ^ 61 - 1
        ∧ (message [] 0x1001 0).memBytes < (0x1001 : DWord).toNat + (0 : DWord).toNat := by
  simp only [message_memBytes]
  exact ⟨⟨describes_message .., by decide⟩, ⟨describes_message .., by decide, by decide⟩, describes_message ..,
    by decide, by decide⟩

theorem witness_LoadSetsContext : loadable (message [] 4093 3) 4093 3 ∧ loadable (message [] 4096 0) 4096 0 :=
  loadable_ends

theorem witness_DigestComputesDigest : (loadable (message [] 4093 3) 4093 3 ∧ loadable (message [] 4096 0) 4096 0)
    ∧ (4093 : DWord).toNat + (3 : DWord).toNat < 2 ^ 64 := ⟨loadable_ends, by decide⟩

theorem witness_HostLoopEqualsDigest : (message [] 4093 3).fault = false ∧ loadable (message [] 4093 3) 4093 3 :=
  ⟨rfl, loadable_ends.1⟩

theorem witness_DigestDependsOnMessageOnly :
    ∀ k, k < 3 → Memory.read abcMem (0 + k) = Memory.read [(16, 0x61), (17, 0x62), (18, 0x63), (20, 0xff)] (16 + k) := by
  decide

theorem witness_DigestAgainGivesSameHash : ∃ t, exec .digest abc = .next t ∧ t.fault = false := by
  obtain ⟨t, h, ht⟩ := exists_of_nextIs test_digest
  exact ⟨t, h, by simp_all⟩

theorem witness_CmpComparesHash : hashed.phase ≠ .uninit ∧ (∀ j : Fin 8, hashed.h[j] = some abcDigest[j])
    ∧ (∀ j : Fin 8, hashed.cv[j] = some abcDigest[j]) ∧ base.fault = false ∧ base.phase = .uninit
    ∧ base.startHash.fault = false ∧ base.startHash.phase ≠ .uninit ∧ lowestUnwritten base.startHash.cv 0
    ∧ lowestUnwritten { hashed with cv := hashed.cv.set 7 none }.cv 7 := by
  unfold lowestUnwritten; decide +kernel

theorem witness_UnwrittenHashWordFaults :
    let s := { ready with h := ready.h.set 7 none, cv := written abcDigest }
    s.fault = false ∧ s.phase ≠ .uninit ∧ lowestUnwritten s.h 7 ∧ s.phase ≠ .final ∧ (∀ i : Fin 16, s.m[i] ≠ none)
      ∧ ∀ i : Fin 8, s.cv[i] ≠ none := by
  unfold lowestUnwritten; decide +kernel

/-- Every command answers a fault-free next state from some fault-free state; the state of FILL has a context. -/
theorem witness_CommandsWriteOnlyTheirState :
    (∃ t, exec .init base = .next t ∧ t.fault = false) ∧ (∃ t, exec .load abc = .next t ∧ t.fault = false)
      ∧ (∃ t, exec .fill { abc with ctx := some abcCtx } = .next t ∧ t.fault = false)
      ∧ (∃ t, exec .sched ready = .next t ∧ t.fault = false) ∧ (∃ t, exec .compress ready = .next t ∧ t.fault = false)
      ∧ (∃ t, exec .digest abc = .next t ∧ t.fault = false) ∧ ∃ t, exec .cmp hashed = .next t ∧ t.fault = false := by
  have key : ∀ {o}, nextIs o (fun t => !t.fault) = true → ∃ t, o = .next t ∧ t.fault = false := fun h => by
    obtain ⟨t, ho, ht⟩ := exists_of_nextIs h
    exact ⟨t, ho, by simpa using ht⟩
  exact ⟨key (by decide +kernel), key (by decide +kernel), key (by decide +kernel), key (by decide +kernel),
    key (by decide +kernel), witness_DigestAgainGivesSameHash, key (by decide +kernel)⟩

/-- The premises on the second state: it agrees on what the command reads and differs elsewhere. -/
theorem witness_CommandsReadOnlyTheirOperands : hashed.fault = false
    ∧ sameDescriptor abc { abc with phase := .final, h := written abcDigest }
    ∧ { abc with phase := .final, h := written abcDigest }.mem = abc.mem
    ∧ { abc with phase := .final, h := written abcDigest }.memLast = abc.memLast
    ∧ { abc with phase := .final, h := written abcDigest }.freeCount = abc.freeCount
    ∧ { hashed with m := ready.m }.m = ready.m ∧ { ready with ctx := some abcCtx }.phase = ready.phase
    ∧ { ready with ctx := some abcCtx }.h = ready.h ∧ { hashed with m := ready.m }.cv = hashed.cv :=
  ⟨rfl, ⟨rfl, rfl, rfl, rfl⟩, rfl, rfl, rfl, rfl, rfl, rfl, rfl⟩

theorem witness_OnlyCmpWritesEq : (∃ t, exec .init base = .next t) ∧ Instr.init ≠ .cmp
    ∧ ∃ t, exec .cmp hashed = .next t ∧ t.fault = false :=
  ⟨⟨_, rfl⟩, by decide, witness_CommandsWriteOnlyTheirState.2.2.2.2.2.2⟩

theorem witness_PhaseChangesByTable : base.fault = false ∧ (∃ t, exec .sched base = .next t ∧ t.fault = true)
    ∧ base.phase = .uninit ∧ hashed.fault = false ∧ hashed.phase = .final
    ∧ (∃ t, hostAccess (.read 0x004) base = .next t) ∧ (0x010 : BitVec 12) ≠ 0x000
    ∧ (∃ t, hostAccess (.write 0x010 0) base = .next t) ∧ (∀ i, decode 8 ≠ .ok i)
    ∧ ∃ t, hostAccess (.write 0x000 8) base = .next t := by
  refine ⟨rfl, ?_, rfl, rfl, rfl, ⟨_, rfl⟩, by decide, ⟨_, rfl⟩, by simp [decode, rsvdField, opField], ⟨_, rfl⟩⟩
  exact exists_of_nextIs (p := fun t => t.fault) (by decide +kernel)

theorem witness_FaultsArePrecise : base.fault = false ∧ (∃ t, exec .fill base = .next t ∧ t.fault = true)
    ∧ (∃ t, hostWrite 0x004 0 base = .next t ∧ t.fault = true) ∧ (hostRead 0x080 base).1.fault = true
    ∧ faulted.fault = true :=
  ⟨rfl, exists_of_nextIs (p := fun t => t.fault) (by decide +kernel),
    exists_of_nextIs (p := fun t => t.fault) (by decide +kernel), by decide +kernel, rfl⟩

theorem witness_FaultStandsUntilReset :
    let s := { faulted with pending := [.access (.write 0x000 0x00000001)] }
    s.fault = true ∧ (∀ rest, s.pending ≠ .reset :: rest) ∧ ∃ t, step s = .next t :=
  ⟨rfl, by simp, ⟨_, rfl⟩⟩

/-- The invariant holds with a digest and with a context (LOAD of three bytes at the end of the memory), and another
memory has the same bytes inside. -/
theorem witness_EveryCommandCompletes :
    let s := { hashed with mem := abcMem, ctx := some { abcCtx with cur := 4093 } }
    s.fault = false ∧ s.Inv ∧ ∀ a, a < s.memBytes → Memory.read (abcMem ++ [(4096, 0xff)]) a = s.mem.read a := by
  refine ⟨rfl, ⟨by decide, by decide, by decide, by decide +kernel, .inl (by decide +kernel), ?_, by decide, by decide⟩, ?_⟩
  · rintro x ⟨⟩
    exact ⟨by decide, by decide, by decide, by decide, by decide, by decide⟩
  · intro a (h : a < 4096)
    simp only [abcMem, List.cons_append, List.nil_append, Memory.read_cons, Memory.read_nil]
    rw [if_neg (show (4096 : Nat) ≠ a by omega)]

/-- Boundary offsets of the ranges of R60 for a write, and an offset that is no multiple of four. -/
theorem witness_AccessOutsideMapIsBad : base.fault = false
    ∧ ∀ n ∈ [0x001, 0x004, 0x00C, 0x020, 0x09C, 0x0C2, 0x100, 0x31C, 0x320, 0xFFC],
      ¬(n % 4 = 0 ∧ (n = 0x000 ∨ (0x010 ≤ n ∧ n ≤ 0x01C) ∨ (0x0A0 ≤ n ∧ n ≤ 0x0FC)))
        ∧ (BitVec.ofNat 12 n).toNat = n := by decide +kernel

/-- Boundary offsets of the ranges of R60 for a read. -/
theorem witness_AccessOutsideMapIsBad_read :
    ∀ n ∈ [0x000, 0x006, 0x00C, 0x04C, 0x07C, 0x320, 0xFFF],
      ¬(n % 4 = 0 ∧ (n = 0x004 ∨ n = 0x008 ∨ (0x010 ≤ n ∧ n ≤ 0x048) ∨ (0x080 ≤ n ∧ n ≤ 0x31C)))
        ∧ (BitVec.ofNat 12 n).toNat = n := by decide +kernel

theorem witness_HostWriteStoresOneRegister : base.fault = false ∧ (1 : Fin 8) ≠ 0 ∧ (1 : Fin 16) ≠ 0 := by decide

theorem witness_HostReadReturnsWordOrFaults : (∀ i : Fin 16, base.m[i] = none) ∧ (∀ i : Fin 64, base.w[i] = none)
    ∧ (∀ j : Fin 8, base.h[j] = none ∧ base.cv[j] = none) ∧ base.msgBaseLo = none ∧ base.msgBaseHi = none
    ∧ base.msgLenLo = none ∧ base.msgLenHi = none ∧ (Reg.h 7) ≠ .cmd ∧ (Reg.h 7).content hashed = some 0xf20015ad
    ∧ (Reg.h 7).content base = none ∧ base.fault = false ∧ base.phase = .uninit ∧ base.ctx = none := by decide +kernel

theorem witness_RegisterFilesReadByOffset : hashed.h[7] = some 0xf20015ad ∧ hashed.cv[0] = some 0xba7816bf
    ∧ abc.msgBaseLo = some 0 ∧ abc.msgBaseHi = some 0 ∧ abc.msgLenLo = some 3 ∧ abc.msgLenHi = some 0
    ∧ ready.m[15] = some 0x18 ∧ { base with w := written (schedule abcWords) }.w[63] = some 0x12b1edeb := by
  decide +kernel

theorem witness_ContextHalvesReadTogether : { base with ctx := some abcCtx }.ctx = some abcCtx := rfl

theorem witness_StatusShowsControlState : base.fault = false := rfl

theorem witness_FaultedCoreIgnoresWrites : faulted.fault = true ∧ (Reg.iv 0) ≠ .cmd
    ∧ (Reg.iv 0).content faulted = some 0x6a09e667 ∧ (Reg.h 0).content faulted = none ∧ regAt 0xFFC = none := by
  decide +kernel

theorem witness_SetmsgSetsDescriptor : base.fault = false := rfl

theorem witness_StepRunsDecodedCommand :
    let s := { base with pending := [.access (.write 0x000 0b101), .reset] }
    s.pending = .access (.write 0x000 0x00000005) :: [.reset] ∧ s.fault = false ∧ decode 0x00000005 = .ok .compress
      ∧ Instr.compress.wf = true := by decide

theorem witness_FetchedWordRunsNext : base.fault = false := rfl

theorem witness_IdleInstanceWaits : base.pending = [] := rfl

theorem witness_StepKeepsInvariant : base.Inv ∧ ∃ t, step (base.withFetchWord 32 1) = .next t :=
  ⟨⟨by decide, by decide, by decide +kernel, by decide, .inl (by decide +kernel), by rintro x ⟨⟩, by decide, by decide⟩,
    ⟨_, rfl⟩⟩

theorem witness_OnlyOutsidePokeStops :
    { base with pending := [.poke 4096 1] }.Inv ∧ step { base with pending := [.poke 4096 1] } = .fault (.noSuchAddress 4096) :=
  ⟨⟨by decide, by decide, by decide +kernel, by decide, .inl (by decide +kernel), by rintro x ⟨⟩, by decide, by decide⟩, rfl⟩

theorem witness_EqualContentsAreEqualMemories : Memory.wf abcMem ∧ Memory.wf (Memory.write (Memory.write abcMem 9 1) 9 0)
    ∧ ∀ a, Memory.read abcMem a = Memory.read (Memory.write (Memory.write abcMem 9 1) 9 0) a :=
  ⟨by decide, by decide, fun _ => rfl⟩

theorem witness_HostPokeChangesOneByte : base.mem.wf ∧ { base with pending := [.poke 4095 1] }.pending = .poke 4095 1 :: []
    ∧ (4095 : DWord).toNat < base.memBytes ∧ base.memBytes ≤ (4096 : DWord).toNat := by decide

/-- A command on one of two instances with memories of their own, and a host write where they share one. -/
theorem witness_InstancesDoNotInteract :
    let p : Platform := { insts := [base.withFetchWord 32 1, base], sharedMem := false }
    let r : Platform := { insts := [{ base with pending := [.poke 4095 1] }, base], sharedMem := true }
    1 ≠ 0 ∧ (∃ q, Platform.step 0 p = .next q) ∧ p.insts[1]? = some base ∧ p.insts[0]? = some (base.withFetchWord 32 1)
      ∧ p.sharedMem = false ∧ noPoke (base.withFetchWord 32 1) ∧ (∃ q, Platform.step 0 r = .next q)
      ∧ r.insts[1]? = some base ∧ r.insts[0]? = some { base with pending := [.poke 4095 1] } ∧ r.sharedMem = true
      ∧ base.mem.wf ∧ (0 : Nat) ≠ (4095 : DWord).toNat :=
  ⟨by decide, ⟨_, rfl⟩, rfl, rfl, rfl, by rintro _ _ _ ⟨⟩, ⟨_, rfl⟩, rfl, rfl, rfl, by decide, by decide⟩

theorem witness_InstancesCommute :
    let p : Platform := { insts := [base.withFetchWord 32 1, { base with pending := [.reset] }], sharedMem := true }
    0 ≠ 1 ∧ p.insts[0]? = some (base.withFetchWord 32 1) ∧ p.insts[1]? = some { base with pending := [.reset] }
      ∧ noPoke (base.withFetchWord 32 1) ∧ noPoke { base with pending := [.reset] }
      ∧ (∀ a ∈ p.insts, ∀ b ∈ p.insts, a.mem = b.mem) ∧ ∃ q, Platform.run [0, 1] p = .next q :=
  ⟨by decide, rfl, rfl, by rintro _ _ _ ⟨⟩, by rintro _ _ _ ⟨⟩, by decide, ⟨_, rfl⟩⟩

end Sys2Proof.Tests
end

section
/-! Facts that several obligations cite: rotation as a word is a rotation of bits, what fault entry records, and the
register files that hold ⊥ in the words of the statements. -/

namespace Sys2Proof.Machine

/-! ### Rotation and shift -/

/-- The rotation of R14, built from two shifts, is the rotation of bit vectors. -/
theorem rotr_eq_rotateRight (x : Word) {n : Nat} (hn : n < 32) : rotr x n = x.rotateRight n := by
  rw [rotr, BitVec.rotateRight_def, Nat.mod_eq_of_lt hn]

/-- Bit `i` of a rotation is bit `i + n` of the word, counted around the word's end (R14). -/
theorem getLsbD_rotr (x : Word) {n i : Nat} (hn : n < 32) (hi : i < 32) :
    (rotr x n).getLsbD i = x.getLsbD ((i + n) % 32) := by
  rw [rotr_eq_rotateRight x hn, BitVec.getLsbD_rotateRight, Nat.mod_eq_of_lt hn, Bool.cond_decide]
  by_cases hlow : i < 32 - n
  · have hidx : (i + n) % 32 = n + i := by omega
    rw [if_pos hlow, hidx]
  · have hidx : (i + n) % 32 = i - (32 - n) := by omega
    rw [if_neg hlow, hidx, decide_eq_true hi, Bool.true_and]

/-- The shift of R14 is floor division by a power of two. -/
theorem toNat_shr (x : Word) (n : Nat) : (shr x n).toNat = x.toNat / 2 ^ n := by
  rw [shr, BitVec.toNat_ushiftRight, Nat.shiftRight_eq_div_pow]

/-! ### Fault entry and register files that hold ⊥ -/

/-- The first fault since reset is recorded, and nothing else changes (R210). -/
theorem recordsFault_raise {s : State} (hf : s.fault = false) (cause : Cause) (info : Word) :
    recordsFault s cause info (s.raise cause info) :=
  State.raise_of_clear s cause info hf

theorem lowestUnwritten_iff {n : Nat} {v : Vector (Option Word) n} {i : Fin n} :
    lowestUnwritten v i ↔ lowestBot v = some i.val := by
  rw [lowestBot_eq_some i.isLt]
  exact and_congr_right fun _ =>
    ⟨fun h j hj => h ⟨j, hj.trans i.isLt⟩ hj, fun h j hj => h j.val hj⟩

theorem forall_ne_none_iff {n : Nat} {v : Vector (Option Word) n} :
    (∀ i : Fin n, v[i] ≠ none) ↔ lowestBot v = none := by
  rw [lowestBot_eq_none]
  exact Fin.forall_iff

theorem elementOffset_ofNat (first i : Nat) :
    elementOffset (BitVec.ofNat 32 first) i = BitVec.ofNat 32 (first + 4 * i) :=
  (BitVec.ofNat_add first (4 * i)).symm

/-! ### A hash word without a value -/

theorem State.block_of_whole {s : State} (h : lowestBot s.m = none) : s.block = .ok (words s.m) := by
  simp [State.block, h]

theorem State.compareValue_of_whole {s : State} (h : lowestBot s.cv = none) :
    s.compareValue = .ok (words s.cv) := by
  simp [State.compareValue, h]

theorem State.hash_of_bot {s : State} {j : Nat} (h : lowestBot s.h = some j) :
    s.hash = .error (elementOffset 0x080 j) := by
  simp [State.hash, h]

/-- COMPRESS past its check of `PHASE`, with a whole block and a hash word that holds ⊥. -/
theorem State.compressM_of_hash_bot {s : State} {j : Nat} (hm : lowestBot s.m = none)
    (hh : lowestBot s.h = some j) : s.compressM = s.raise .uninitRead (elementOffset 0x080 j) := by
  simp [State.compressM, State.block_of_whole hm, State.hash_of_bot hh]

/-- CMP past its check of `PHASE`, with a whole compare value and a hash word that holds ⊥. -/
theorem State.compareCv_of_hash_bot {s : State} {j : Nat} (hcv : lowestBot s.cv = none)
    (hh : lowestBot s.h = some j) : s.compareCv = s.raise .uninitRead (elementOffset 0x080 j) := by
  simp [State.compareCv, State.compareValue_of_whole hcv, State.hash_of_bot hh]

/-- COMPRESS outside UNINIT and FINAL goes on to its block (R138). -/
theorem exec_compress_of_open {s : State} (hu : s.phase ≠ .uninit) (hfin : s.phase ≠ .final) :
    exec .compress s = .next s.compressM := by
  rcases execCompress_cases s with ⟨h, -⟩ | ⟨h, -⟩ | ⟨-, he⟩
  · exact absurd h hu
  · exact absurd h hfin
  · exact he

/-- CMP outside UNINIT goes on to its compare value (R176). -/
theorem exec_cmp_of_open {s : State} (hu : s.phase ≠ .uninit) : exec .cmp s = .next s.compareCv := by
  rcases execCmp_cases s with ⟨h, -⟩ | ⟨-, he⟩
  · exact absurd h hu
  · exact he

end Sys2Proof.Machine
end

section
/-! The obligations of spec/00_scope.md. -/

namespace Sys2Proof.Machine

/-- Settles O7: the word's rotation is the rotation of bit vectors, and its shift is division on `toNat`. -/
theorem rotationAndShiftMoveBits : Obligations.RotationAndShiftMoveBits :=
  ⟨fun x _ _ _ hn hi => getLsbD_rotr x (Nat.lt_succ_of_le hn) hi, toNat_shr⟩

/-- Settles O30: past their other checks, COMPRESS and CMP raise at the lowest hash word that holds ⊥. -/
theorem unwrittenHashWordFaults : Obligations.UnwrittenHashWordFaults := by
  intro s j hf hu hj
  have hh := lowestUnwritten_iff.1 hj
  have hrec := recordsFault_raise hf .uninitRead (BitVec.ofNat 32 (0x080 + 4 * j.val))
  rw [← elementOffset_ofNat] at hrec ⊢
  refine ⟨fun hfin hm => ⟨_, exec_compress_of_open hu hfin, ?_⟩, fun hcv => ⟨_, exec_cmp_of_open hu, ?_⟩⟩
  · rw [State.compressM_of_hash_bot (forall_ne_none_iff.1 hm) hh]
    exact hrec
  · rw [State.compareCv_of_hash_bot (forall_ne_none_iff.1 hcv) hh]
    exact hrec

end Sys2Proof.Machine
end

section
/-! What a command, a host access and a step leave behind: one inversion lemma for each, in terms of the commands'
writes, which the statements about every step cite. -/

namespace Sys2Proof.Machine

/-- A command that ends without recording a fault, and the state its writes leave. -/
inductive Completes (s : State) : Instr → State → Prop where
  | init : Completes s .init s.startHash
  | load {x : Ctx} (hx : loadCtx 0x00000002 s = .ok x) : Completes s .load (s.setCtx x)
  | fill {x : Ctx} (hx : s.ctx = some x) (hne : x.bcnt ≠ x.nblk) (hin : readsOutside x s = false) :
      Completes s .fill (s.materialise x)
  | sched (hm : lowestBot s.m = none) : Completes s .sched (s.setW (schedule (words s.m)))
  | compress (hp : s.phase = .initialized ∨ s.phase = .updated) (hm : lowestBot s.m = none)
      (hh : lowestBot s.h = none) : Completes s .compress (s.foldBlock (words s.h) (words s.m))
  | digest {x : Ctx} (hx : loadCtx 0x00000006 s = .ok x) : Completes s .digest (s.digestMessage x)
  | cmp (hp : s.phase ≠ .uninit) (hcv : lowestBot s.cv = none) (hh : lowestBot s.h = none) :
      Completes s .cmp (s.setEq (hashesEqual (words s.h) (words s.cv)))

/-- `t` is `s` after fault entry with one of the causes of R201 to R207. -/
def raisesFrom (s t : State) : Prop := ∃ cause info, cause ≠ .noFault ∧ t = s.raise cause info

theorem loadCtx_cause {cw : Word} {s : State} {cause : Cause} {info : Word}
    (h : loadCtx cw s = .error (cause, info)) : cause ≠ .noFault := by
  rcases loadCtx_error h with rfl | ⟨rfl, -⟩ | ⟨rfl, -⟩ <;> decide

/-- The next state of a command: its writes (R82), or a fault entry (R210). -/
theorem exec_next {i : Instr} {s t : State} (h : exec i s = .next t) : Completes s i t ∨ raisesFrom s t := by
  cases i with
  | init => cases h; exact .inl .init
  | load =>
    rcases execLoad_cases s with ⟨x, hx, he⟩ | ⟨cause, info, hx, he⟩ <;> cases he.symm.trans h
    · exact .inl (.load hx)
    · exact .inr ⟨cause, info, loadCtx_cause hx, rfl⟩
  | fill =>
    rcases execFill_cases s with ⟨-, he⟩ | ⟨x, hx, ⟨-, he⟩ | ⟨-, -, he⟩ | ⟨hne, hin, he⟩⟩ <;> cases he.symm.trans h
    · exact .inr ⟨_, _, by decide, rfl⟩
    · exact .inr ⟨_, _, by decide, rfl⟩
    · exact .inl (.fill hx hne hin)
  | sched =>
    rcases execSched_cases s with ⟨j, -, he⟩ | ⟨hm, he⟩ <;> cases he.symm.trans h
    · exact .inr ⟨_, _, by decide, rfl⟩
    · exact .inl (.sched hm)
  | compress =>
    rcases execCompress_cases s with ⟨-, he⟩ | ⟨-, he⟩ | ⟨hp, he⟩ <;> cases he.symm.trans h
    · exact .inr ⟨_, _, by decide, rfl⟩
    · exact .inr ⟨_, _, by decide, rfl⟩
    · rcases s.compressM_cases with ⟨j, -, hc⟩ | ⟨-, j, -, hc⟩ | ⟨hm, hh, hc⟩ <;> rw [hc]
      · exact .inr ⟨_, _, by decide, rfl⟩
      · exact .inr ⟨_, _, by decide, rfl⟩
      · exact .inl (.compress hp hm hh)
  | digest =>
    rcases execDigest_cases s with ⟨x, hx, he⟩ | ⟨cause, info, hx, he⟩ <;> cases he.symm.trans h
    · exact .inl (.digest hx)
    · exact .inr ⟨cause, info, loadCtx_cause hx, rfl⟩
  | cmp =>
    rcases execCmp_cases s with ⟨-, he⟩ | ⟨hp, he⟩ <;> cases he.symm.trans h
    · exact .inr ⟨_, _, by decide, rfl⟩
    · rcases s.compareCv_cases with ⟨j, -, hc⟩ | ⟨-, j, -, hc⟩ | ⟨hcv, hh, hc⟩ <;> rw [hc]
      · exact .inr ⟨_, _, by decide, rfl⟩
      · exact .inr ⟨_, _, by decide, rfl⟩
      · exact .inl (.cmp hp hcv hh)

/-- The next state of a host write (R63): ignored, a fault entry, a command, or one register stored. -/
theorem hostWrite_next {off : BitVec 12} {v : Word} {s t : State} (h : hostWrite off v s = .next t) :
    t = s ∨ raisesFrom s t ∨ (∃ i, Completes s i t) ∨ ∃ r : Reg, r.store v s = some t := by
  rcases hostWrite_cases off v s with ⟨-, he⟩ | ⟨-, he⟩ | ⟨-, -, he⟩ | ⟨-, r, u, -, hu, he⟩ <;> rw [he] at h
  · cases h; exact .inl rfl
  · cases h; exact .inr (.inl ⟨_, _, by decide, rfl⟩)
  · rcases issueCommand_cases v s with ⟨i, -, hi⟩ | ⟨e, -, hi⟩ <;> rw [hi] at h
    · rcases exec_next h with hc | hr
      · exact .inr (.inr (.inl ⟨i, hc⟩))
      · exact .inr (.inl hr)
    · cases h; exact .inr (.inl ⟨_, _, by decide, rfl⟩)
  · cases h; exact .inr (.inr (.inr ⟨r, hu⟩))

/-- The state a host read leaves (R64): the same, or a fault entry. -/
theorem hostRead_fst (off : BitVec 12) (s : State) : (hostRead off s).1 = s ∨ raisesFrom s (hostRead off s).1 := by
  rcases hostRead_cases off s with ⟨r, v, -, -, he⟩ | he | he <;> rw [he]
  · exact .inl rfl
  · exact .inr ⟨_, _, by decide, rfl⟩
  · exact .inr ⟨_, _, by decide, rfl⟩

/-- What R63 lets the host store into a register: the block, the compare value or the descriptor, and nothing else. -/
theorem Reg.store_frame {r : Reg} {v : Word} {s t : State} (h : r.store v s = some t) :
    t = { s with
      m := t.m, cv := t.cv, msgBaseLo := t.msgBaseLo, msgBaseHi := t.msgBaseHi, msgLenLo := t.msgLenLo,
      msgLenHi := t.msgLenHi } := by
  cases r <;> cases h <;> rfl

/-- No command writes the message memory (R50). -/
theorem Completes.mem_eq {i : Instr} {s t : State} (h : Completes s i t) : t.mem = s.mem := by
  cases h with
  | digest hx =>
    obtain ⟨-, -, -, -, -, -, -, -, -, hmem, -⟩ := s.digestMessage_keeps _
    exact hmem
  | _ => rfl

theorem raisesFrom.mem_eq {s t : State} (h : raisesFrom s t) : t.mem = s.mem := by
  obtain ⟨cause, info, -, rfl⟩ := h
  exact s.raise_mem cause info

/-- No host write to the register window writes the message memory (R50). -/
theorem hostWrite_mem {off : BitVec 12} {v : Word} {s t : State} (h : hostWrite off v s = .next t) :
    t.mem = s.mem := by
  rcases hostWrite_next h with rfl | hr | ⟨i, hc⟩ | ⟨r, hr⟩
  · rfl
  · exact hr.mem_eq
  · exact hc.mem_eq
  · rw [Reg.store_frame hr]

theorem hostRead_mem (off : BitVec 12) (s : State) : (hostRead off s).1.mem = s.mem := by
  rcases hostRead_fst off s with he | hr
  · rw [he]
  · exact hr.mem_eq

/-- A step leaves the message memory as it was, unless its event is a host write of it (R50, R69). -/
theorem step_mem_of_noPoke {s t : State} (hp : noPoke s) (h : step s = .next t) : t.mem = s.mem := by
  rcases step_cases s with ⟨-, he⟩ | ⟨off, v, rest, -, he⟩ | ⟨off, rest, -, he⟩ | ⟨rest, -, he⟩ | ⟨addr, b, rest, hq, -⟩
  · cases he.symm.trans h; rfl
  · have hmem := hostWrite_mem (he.symm.trans h)
    exact hmem
  · cases he.symm.trans h; exact hostRead_mem off _
  · cases he.symm.trans h; rfl
  · exact absurd hq (hp addr b rest)

/-- A step whose event is a host write of the message memory leaves the memory written (R50). -/
theorem step_mem_of_poke {s t : State} {addr : DWord} {b : Byte} {rest : List HostEvent}
    (hq : s.pending = .poke addr b :: rest) (h : step s = .next t) : t.mem = s.mem.write addr.toNat b := by
  have he : step s = hostPoke addr b (s.setPending rest) := by simp [step, hq, hostEvent]
  rcases hostPoke_cases addr b (s.setPending rest) with ⟨-, hn⟩ | ⟨-, hn⟩ <;> cases (he.trans hn).symm.trans h
  rfl

end Sys2Proof.Machine
end

section
/-! The invariant: it holds after reset, every write of a command keeps it, and so does every step. -/

namespace Sys2Proof.Machine

/-! ### After reset -/

@[simp] theorem State.reset_h (j : Fin 8) : State.reset.h[j] = none := Vector.getElem_replicate j.isLt
@[simp] theorem State.reset_m (i : Fin 16) : State.reset.m[i] = none := Vector.getElem_replicate i.isLt
@[simp] theorem State.reset_w (i : Fin 64) : State.reset.w[i] = none := Vector.getElem_replicate i.isLt
@[simp] theorem State.reset_cv (j : Fin 8) : State.reset.cv[j] = none := Vector.getElem_replicate j.isLt

/-- Registers at their reset values, with any canonical memory that lies inside its size (R38, R232). -/
theorem State.reset_inv_of_mem {mem : Memory} {memLast : DWord} (hwf : mem.wf)
    (hin : ∀ c ∈ mem, c.1 < memLast.toNat + 1) : ({ State.reset with mem := mem, memLast := memLast } : State).Inv where
  mem_wf := hwf
  mem_inside := hin
  h_bot _ := State.reset_h
  h_word hp := absurd rfl hp
  w_whole := .inl State.reset_w
  ctx_agrees _ hx := nomatch hx
  record_clear _ := ⟨rfl, rfl⟩
  record_set hf := nomatch hf

/-- Settles O50: the memory lists nothing after reset. -/
theorem invariantHoldsAtReset : Obligations.InvariantHoldsAtReset :=
  State.reset_inv_of_mem Memory.wf_nil fun _ hc => nomatch hc

/-! ### The writes of registers and of the memory -/

/-- A state with every register at its reset value that the invariant does not speak of. -/
def State.guarded (s : State) : State :=
  { State.reset with
    h := s.h, w := s.w, ctx := s.ctx, phase := s.phase, fault := s.fault, cause := s.cause, finfo := s.finfo
    mem := s.mem, memLast := s.memLast }

theorem State.inv_guarded (s : State) : s.guarded.Inv ↔ s.Inv := ⟨fun h => { h with }, fun h => { h with }⟩

/-- The invariant speaks of no field that `State.guarded` resets. -/
theorem State.Inv.of_guarded_eq {s t : State} (hs : s.Inv) (h : t.guarded = s.guarded) : t.Inv := by
  rwa [← State.inv_guarded, h, State.inv_guarded]

/-- A context that `LoadCtx` gives agrees with its message (R172). -/
theorem loadCtx_agrees {cw : Word} {s : State} {x : Ctx} (hx : loadCtx cw s = .ok x) : x.Agrees s.memBytes := by
  obtain ⟨base, len, -, hlen, hmem, rfl⟩ := loadCtx_ok.1 hx
  exact Ctx.start_agrees hlen hmem

/-- The block loop of DIGEST never goes back to `UNINIT` (R170). -/
theorem State.digestBlocks_phase {n : Nat} {s : State} (hp : s.phase ≠ .uninit) :
    (State.digestBlocks n s).phase ≠ .uninit := by
  refine State.digestBlocks_induct (P := fun t => t.phase ≠ .uninit) hp fun t ht => ?_
  unfold State.digestBlock
  cases t.ctx with
  | none => exact ht
  | some x => simp

/-- Reset keeps the memory (R232). -/
theorem State.Inv.applyReset {s : State} (hs : s.Inv) : s.applyReset.Inv :=
  (State.reset_inv_of_mem hs.mem_wf hs.mem_inside).of_guarded_eq rfl

section Writes

variable {s : State} (hs : s.Inv)
include hs

/-- A whole schedule is written (R24). -/
theorem State.Inv.setW (v : Vector Word 64) : (s.setW v).Inv :=
  { hs with w_whole := .inr fun i => by simp }

/-- A whole hash state is written as `PHASE` leaves or stays outside `UNINIT` (R28). -/
theorem State.Inv.setH_setPhase (v : Vector Word 8) {p : Phase} (hp : p ≠ .uninit) : ((s.setH v).setPhase p).Inv :=
  { hs with
    h_bot := fun h => absurd h hp
    h_word := fun _ j => by simp }

theorem State.Inv.setPhase {p : Phase} (hq : s.phase ≠ .uninit) (hp : p ≠ .uninit) : (s.setPhase p).Inv :=
  { hs with
    h_bot := fun h => absurd h hp
    h_word := fun _ => hs.h_word hq }

theorem State.Inv.setCtx {x : Ctx} (hx : x.Agrees s.memBytes) : (s.setCtx x).Inv :=
  { hs with ctx_agrees := fun y hy => by cases hy; exact hx }

/-- Fault entry sets `FAULT` and leaves a cause (R31, R210). -/
theorem State.Inv.of_raisesFrom {t : State} (h : raisesFrom s t) : t.Inv := by
  obtain ⟨cause, info, hc, rfl⟩ := h
  cases hf : s.fault with
  | true => rwa [State.raise_of_faulted _ _ _ hf]
  | false =>
    rw [State.raise_of_clear _ _ _ hf]
    exact { hs with
      record_clear := fun h => nomatch h
      record_set := fun _ => hc }

/-- The host writes a byte that exists (R50). -/
theorem State.Inv.poke {a : Nat} (ha : a < s.memBytes) (b : Byte) : (s.setMem (s.mem.write a b)).Inv :=
  { hs with
    mem_wf := Memory.write_wf hs.mem_wf a b
    mem_inside := fun c hc => by
      rcases Memory.mem_write hc with rfl | hc
      · exact ha
      · exact hs.mem_inside c hc }

theorem State.Inv.setPending (es : List HostEvent) : (s.setPending es).Inv :=
  hs.of_guarded_eq rfl

theorem State.Inv.addResult (r : ReadResult) : (s.addResult r).Inv :=
  hs.of_guarded_eq rfl

/-- No register that the host stores into is in the invariant (R63). -/
theorem State.Inv.store {t : State} {r : Reg} {v : Word} (h : r.store v s = some t) : t.Inv := by
  rw [Reg.store_frame h]
  exact hs.of_guarded_eq rfl

/-! ### The writes of the commands -/

theorem State.Inv.startHash : s.startHash.Inv := hs.setH_setPhase IV (by decide)

theorem State.Inv.foldBlock (v : Vector Word 8) (b : Vector Word 16) : (s.foldBlock v b).Inv :=
  (hs.setW _).setH_setPhase _ (by decide)

/-- FILL advances the context before its last block (R27, R156). -/
theorem State.Inv.materialise {x : Ctx} (hx : s.ctx = some x) (hne : x.bcnt ≠ x.nblk) : (s.materialise x).Inv := by
  have hy := (hs.ctx_agrees x hx).advance s.memBytes_le hne (Config.curPastTop s.freeCount)
  exact (hs.setCtx hy).of_guarded_eq (by simp [State.guarded])

/-- The block loop of DIGEST, as long as no turn goes past the last block (R174). -/
theorem State.Inv.digestBlocks {n : Nat} (hn : ∀ x, s.ctx = some x → x.bcnt.toNat + n ≤ x.nblk.toNat) :
    (State.digestBlocks n s).Inv := by
  induction n generalizing s with
  | zero => exact hs
  | succ n ih =>
    rw [State.digestBlocks, State.digestBlock]
    cases hx : s.ctx with
    | none => exact ih hs fun y hy => nomatch hx.symm.trans hy
    | some x =>
      have hle := hn x hx
      have hne : x.bcnt ≠ x.nblk := fun h => by rw [h] at hle; omega
      refine ih ((hs.materialise hx hne).foldBlock _ _) fun y hy => ?_
      rw [State.foldBlock_ctx, State.materialise_ctx] at hy
      cases hy
      have hsucc := (hs.ctx_agrees x hx).bcnt_succ
      simp only [Ctx.advance]
      omega

theorem State.Inv.digestMessage {x : Ctx} {cw : Word} (hx : loadCtx cw s = .ok x) : (s.digestMessage x).Inv := by
  have hstart : (s.startHash.setCtx x).Inv := hs.startHash.setCtx (loadCtx_agrees hx)
  obtain ⟨base, len, -, -, -, rfl⟩ := loadCtx_ok.1 hx
  refine (hstart.digestBlocks fun y hy => ?_).setPhase (State.digestBlocks_phase ?_) (by decide)
  · cases hy; simp [Ctx.start]
  · simp

/-- Every command keeps the invariant where it completes. -/
theorem State.Inv.of_completes {i : Instr} {t : State} (h : Completes s i t) : t.Inv := by
  cases h with
  | init => exact hs.startHash
  | load hx => exact hs.setCtx (loadCtx_agrees hx)
  | fill hx hne _ => exact hs.materialise hx hne
  | sched _ => exact hs.setW _
  | compress _ _ _ => exact hs.foldBlock _ _
  | digest hx => exact hs.digestMessage hx
  | cmp _ _ _ => exact hs.of_guarded_eq rfl

/-! ### Host accesses -/

theorem State.Inv.hostWrite {off : BitVec 12} {v : Word} {t : State} (h : hostWrite off v s = .next t) : t.Inv := by
  rcases hostWrite_next h with rfl | hr | ⟨i, hc⟩ | ⟨r, hr⟩
  · exact hs
  · exact hs.of_raisesFrom hr
  · exact hs.of_completes hc
  · exact hs.store hr

theorem State.Inv.hostRead (off : BitVec 12) : (hostRead off s).1.Inv := by
  rcases hostRead_fst off s with he | hr
  · rwa [he]
  · exact hs.of_raisesFrom hr

end Writes

/-- Settles O51: every event of the host is a write that keeps the invariant. -/
theorem stepKeepsInvariant : Obligations.StepKeepsInvariant := by
  intro s t hs h
  rcases step_cases s with ⟨-, he⟩ | ⟨off, v, rest, -, he⟩ | ⟨off, rest, -, he⟩ | ⟨rest, -, he⟩ | ⟨addr, b, rest, -, he⟩
  · cases he.symm.trans h; exact hs
  · exact (hs.setPending rest).hostWrite (he.symm.trans h)
  · cases he.symm.trans h; exact ((hs.setPending rest).hostRead off).addResult _
  · cases he.symm.trans h; exact (hs.setPending rest).applyReset
  · rcases hostPoke_cases addr b (s.setPending rest) with ⟨ha, hn⟩ | ⟨-, hn⟩ <;> cases (he.trans hn).symm.trans h
    exact (hs.setPending rest).poke ha b

end Sys2Proof.Machine
end

section
/-! The control state: `EQ` (R33), `STATUS` (R29), and the values after reset (R38). -/

namespace Sys2Proof.Machine

/-! ### `EQ` -/

theorem raisesFrom.eqFlag_eq {s t : State} (h : raisesFrom s t) : t.eqFlag = s.eqFlag := by
  obtain ⟨cause, info, -, rfl⟩ := h
  exact s.raise_eqFlag cause info

theorem raisesFrom.fault_eq {s t : State} (h : raisesFrom s t) : t.fault = true := by
  obtain ⟨cause, info, -, rfl⟩ := h
  exact s.raise_fault cause info

/-- No command but CMP writes `EQ` (R33). -/
theorem Completes.eqFlag_eq {i : Instr} {s t : State} (h : Completes s i t) (hi : i ≠ .cmp) : t.eqFlag = s.eqFlag := by
  cases h with
  | digest hx =>
    obtain ⟨-, -, -, -, -, -, -, -, heq, -⟩ := s.digestMessage_keeps _
    exact heq
  | cmp => exact absurd rfl hi
  | _ => rfl

/-- Register files without ⊥ hold the same words exactly when they are equal element by element. -/
theorem words_eq_iff {n : Nat} {u v : Vector (Option Word) n} (hu : lowestBot u = none) (hv : lowestBot v = none) :
    words u = words v ↔ ∀ j : Fin n, u[j] = v[j] := by
  constructor
  · intro h
    have huv : u = v := by rw [← written_words hu, h, written_words hv]
    exact fun j => by rw [huv]
  · intro h
    exact congrArg words (Vector.ext fun j hj => h ⟨j, hj⟩)

/-! ### `STATUS` -/

/-- `STATUS` bit by bit, by the positions of R29. -/
theorem State.getLsbD_status (s : State) (i : Nat) : s.status.getLsbD i =
    if i < 2 then s.phase.code.getLsbD i
    else if i = 2 then s.fault
    else if i = 3 then s.eqFlag
    else if i = 4 then s.msgv
    else if i = 5 then s.last
    else decide (8 ≤ i) && s.cause.code.getLsbD (i - 8) := by
  simp only [State.status, BitVec.getLsbD_append, BitVec.getLsbD_ofBool]
  grind (splits := 20)

theorem State.status_phase (s : State) : s.status.extractLsb' 0 2 = s.phase.code := by
  ext i hi
  grind [State.getLsbD_status]

theorem State.status_cause (s : State) : s.status.extractLsb' 8 4 = s.cause.code := by
  ext i hi
  grind [State.getLsbD_status]

/-- The bits of `STATUS` between `LAST` and `CAUSE` and those above `CAUSE` are zeros (R29). -/
theorem State.status_zeros (s : State) : s.status.extractLsb' 6 2 = 0 ∧ s.status.extractLsb' 12 20 = 0 := by
  constructor <;> ext i hi <;> grind [State.getLsbD_status]

theorem State.msgv_iff (s : State) : s.msgv = true ↔ s.ctx ≠ none := Option.isSome_iff_ne_none

theorem State.last_iff (s : State) : s.last = true ↔ ∃ x, s.ctx = some x ∧ x.bcnt = x.nblk := by
  unfold State.last
  cases s.ctx <;> simp

/-- `STATUS` never holds ⊥, so a read returns it (R29, R64). -/
theorem hostRead_status (s : State) : hostRead 0x004 s = (s, some s.status) := rfl

/-- `STATUS` is read-only (R60, R63). -/
theorem hostWrite_status {s : State} (hf : s.fault = false) (v : Word) :
    hostWrite 0x004 v s = .next (s.raise .badAccess 0x80000004) := by
  rw [hostWrite, if_neg (by simp [hf])]
  rfl

theorem State.reset_status : State.reset.status = 0 := by decide

/-- Settles O33: every other command leaves `EQ`, and a CMP that completes writes the comparison of its operands. -/
theorem onlyCmpWritesEq : Obligations.OnlyCmpWritesEq := by
  refine ⟨fun i s t h hi => ?_, fun s t h hf => ?_, fun s => ?_, rfl⟩
  · rcases exec_next h with hc | hr
    · exact hc.eqFlag_eq hi
    · exact hr.eqFlag_eq
  · rcases exec_next h with hc | hr
    · cases hc with
      | cmp _ hcv hh => exact (hashesEqual_iff _ _).trans (words_eq_iff hh hcv)
    · exact absurd hr.fault_eq (by simp [hf])
  · exact s.getLsbD_status 3

/-- Settles O43: each field of `STATUS` from its bits, and the accesses at its offset. -/
theorem statusShowsControlState : Obligations.StatusShowsControlState := by
  refine ⟨fun s => ⟨?_, ?_, s.getLsbD_status 2, s.getLsbD_status 3, ?_, ?_, s.status_zeros.1, s.status_zeros.2,
    hostRead_status s⟩, fun s v hf => ⟨_, hostWrite_status hf v, recordsFault_raise hf _ _⟩, State.reset_status⟩
  · rw [State.status_phase]
    cases s.phase <;> rfl
  · rw [State.status_cause]
    cases s.cause <;> rfl
  · rw [s.getLsbD_status 4]
    exact s.msgv_iff
  · rw [s.getLsbD_status 5]
    exact s.last_iff

/-! ### Reset -/

/-- Settles O5: each register has the value of R38. -/
theorem resetLeavesNoValue : Obligations.ResetLeavesNoValue :=
  ⟨State.reset_h, State.reset_m, State.reset_w, State.reset_cv, rfl, rfl, rfl, rfl, rfl, rfl, rfl, rfl, rfl, rfl,
    State.reset_status⟩

/-- A step whose event is reset is the reset event on the state without that event (R230). -/
theorem step_of_reset {s : State} {rest : List HostEvent} (h : s.pending = .reset :: rest) :
    step s = .next (s.setPending rest).applyReset := by
  simp only [step, h, hostEvent]

/-- Settles O6: the reset event writes the registers of `State.reset` and nothing else. -/
theorem resetEventRestoresReset : Obligations.ResetEventRestoresReset := by
  intro s rest h
  exact ⟨_, step_of_reset h, State.reset_h, State.reset_m, State.reset_w, State.reset_cv, rfl, rfl, rfl, rfl, rfl, rfl,
    rfl, rfl, rfl, rfl, State.reset_status, fun _ => rfl, rfl, rfl, rfl, fun _ => rfl, fun _ => rfl⟩

end Sys2Proof.Machine
end

section
/-! The platform (R39, R71). -/

namespace Sys2Proof.Machine

/-- A platform's step is the acting core's step as it would be alone; the others see its memory if it is shared. -/
theorem Platform.step_next {p q : Platform} {k : Nat} {u : State} (hu : p.insts[k]? = some u)
    (h : Platform.step k p = .next q) :
    ∃ t, Machine.step u = .next t ∧ q = { p with insts := (p.insts.map (p.seenBy t)).set k t } := by
  unfold Platform.step at h
  rw [hu] at h
  cases ht : Machine.step u with
  | next t =>
    simp only [ht] at h
    cases h
    exact ⟨t, rfl, rfl⟩
  | fault e => simp [ht] at h
  | refused e => simp [ht] at h

/-- Settles O55: the others see the acting core's memory at most, and a step writes that only by a host write. -/
theorem instancesDoNotInteract : Obligations.InstancesDoNotInteract := by
  intro p q k j s u hjk h hs hu
  obtain ⟨t, ht, rfl⟩ := Platform.step_next hu h
  have hk : k < p.insts.length := (List.getElem?_eq_some_iff.1 hu).1
  have hother : ((p.insts.map (p.seenBy t)).set k t)[j]? = some (p.seenBy t s) := by
    rw [List.getElem?_set_ne (Ne.symm hjk), List.getElem?_map, hs, Option.map_some]
  refine ⟨t, ht, ?_, by simp, rfl, fun hsh => ?_, fun hsh => ?_, fun hp => step_mem_of_noPoke hp ht,
    fun addr b rest hq hwf => ?_⟩
  · exact List.getElem?_set_self (by simpa using hk)
  · simpa [Platform.seenBy, hsh] using hother
  · simpa [Platform.seenBy, hsh] using hother
  · rw [step_mem_of_poke hq ht]
    exact ⟨Memory.read_write_same hwf _ b, fun a ha => Memory.read_write_other hwf ha b⟩

end Sys2Proof.Machine
end

section
/-! The register window: the address decoder (R60), and what a host access at a register's offset answers (R63, R64). -/

namespace Sys2Proof.Machine

/-! ### The address decoder -/

theorem misaligned_iff (off : BitVec 12) : misaligned off = true ↔ off.toNat % 4 ≠ 0 := by
  rw [misaligned, bne_iff_ne, ne_eq, ← BitVec.toNat_inj, BitVec.extractLsb'_toNat]
  rfl

@[simp] theorem regAt_offset (r : Reg) : regAt r.offset = some r := by
  cases r with
  | h i | cv i | m i | w i | k i | iv i => revert i; decide
  | _ => rfl

theorem offset_of_regAt {off : BitVec 12} {r : Reg} (h : regAt off = some r) : r.offset = off := by
  apply BitVec.eq_of_toNat_eq
  unfold regAt at h
  simp only [misaligned_iff] at h
  split at h
  · cases h
  · -- the six register files, then the single registers
    iterate 6
      split at h
      · cases h
        simp only [Reg.offset, BitVec.toNat_ofNat]
        omega
    split at h <;> cases h <;> exact Eq.symm ‹off.toNat = _›

/-- Settles O4: each register's offset lies in its own range of the decoder. -/
theorem registerOffsetsAgree : Obligations.RegisterOffsetsAgree :=
  ⟨regAt_offset, fun _ _ => offset_of_regAt⟩

/-! ### Accesses at the offset of a register -/

theorem Reg.ne_cmd_of_content {r : Reg} {s : State} {v : Word} (h : r.content s = some v) : r ≠ .cmd := by
  rintro rfl
  cases h

theorem hostRead_of_content {r : Reg} {s : State} {v : Word} (h : r.content s = some v) :
    hostRead r.offset s = (s, some v) := by
  simp [hostRead, Reg.readable, Reg.ne_cmd_of_content h, h]

theorem hostRead_of_bot {r : Reg} {s : State} (hr : r ≠ .cmd) (h : r.content s = none) :
    hostRead r.offset s = (s.raise .uninitRead (readInfo r.offset), none) := by
  simp [hostRead, Reg.readable, hr, h]

/-- A read where the map has no register, or only the write-only `CMD`, is a bad access (R61, R64). -/
theorem hostRead_of_unreadable {off : BitVec 12} (h : ∀ r, regAt off = some r → r = .cmd) (s : State) :
    hostRead off s = (s.raise .badAccess (readInfo off), none) := by
  unfold hostRead
  cases hr : regAt off with
  | none => rfl
  | some r => rw [h r hr]; rfl

theorem hostWrite_of_store {r : Reg} {v : Word} {s t : State} (hf : s.fault = false) (h : r.store v s = some t) :
    hostWrite r.offset v s = .next t := by
  have hne : r ≠ .cmd := by rintro rfl; cases h
  simp [hostWrite, hf, h]

/-! ### Offsets outside the map -/

theorem Reg.offset_of_store {r : Reg} {v : Word} {s t : State} (h : r.store v s = some t) :
    r.offset.toNat % 4 = 0 ∧ ((0x010 ≤ r.offset.toNat ∧ r.offset.toNat ≤ 0x01C)
      ∨ (0x0A0 ≤ r.offset.toNat ∧ r.offset.toNat ≤ 0x0FC)) := by
  cases r with
  | cv i | m i => simp only [Reg.offset, BitVec.toNat_ofNat]; omega
  | msgBaseLo | msgBaseHi | msgLenLo | msgLenHi => decide
  | _ => cases h

theorem Reg.offset_of_ne_cmd {r : Reg} (h : r ≠ .cmd) :
    r.offset.toNat % 4 = 0 ∧ (r.offset.toNat = 0x004 ∨ r.offset.toNat = 0x008
      ∨ (0x010 ≤ r.offset.toNat ∧ r.offset.toNat ≤ 0x048)
      ∨ (0x080 ≤ r.offset.toNat ∧ r.offset.toNat ≤ 0x31C)) := by
  cases r with
  | h i | cv i | m i | w i | k i | iv i => simp only [Reg.offset, BitVec.toNat_ofNat]; omega
  | cmd => exact absurd rfl h
  | _ => decide

/-- Settles O38: the decoder's registers that take the access stand inside the ranges of R60. -/
theorem accessOutsideMapIsBad : Obligations.AccessOutsideMapIsBad := by
  intro s off v hf
  refine ⟨fun hout => ?_, fun hout => ?_⟩
  · rcases hostWrite_cases off v s with ⟨ht, -⟩ | ⟨-, he⟩ | ⟨-, hr, -⟩ | ⟨-, r, t, hr, ht, -⟩
    · exact absurd ht (by simp [hf])
    · exact ⟨_, he, recordsFault_raise hf _ _⟩
    · cases offset_of_regAt hr
      exact absurd (by decide) hout
    · cases offset_of_regAt hr
      exact absurd ((Reg.offset_of_store ht).imp_right .inr) hout
  · have hcmd : ∀ r, regAt off = some r → r = .cmd := fun r hr => by
      by_contra hne
      cases offset_of_regAt hr
      exact hout (Reg.offset_of_ne_cmd hne)
    exact ⟨_, hostRead_of_unreadable hcmd s, recordsFault_raise hf _ _⟩

/-! ### Registers that the host writes and reads -/

/-- Settles O39: each register that the host may write is stored by its own update of the state. -/
theorem hostWriteStoresOneRegister : Obligations.HostWriteStoresOneRegister := by
  intro s v hf
  have hw : ∀ {r : Reg} {t : State}, r.store v s = some t → hostWrite r.offset v s = .next t :=
    hostWrite_of_store hf
  refine ⟨hw (r := .msgBaseLo) rfl, hw (r := .msgBaseHi) rfl, hw (r := .msgLenLo) rfl, hw (r := .msgLenHi) rfl,
    fun j => ⟨_, hw (r := .cv j) rfl, ?_, fun k hk => ?_, rfl⟩,
    fun i => ⟨_, hw (r := .m i) rfl, ?_, fun k hk => ?_, rfl⟩⟩
  · exact Vector.getElem_set_self _
  · exact Vector.getElem_set_ne j.isLt k.isLt (Fin.val_ne_of_ne hk.symm)
  · exact Vector.getElem_set_self _
  · exact Vector.getElem_set_ne i.isLt k.isLt (Fin.val_ne_of_ne hk.symm)

/-- Settles O41: each register is read at its own offset. -/
theorem registerFilesReadByOffset : Obligations.RegisterFilesReadByOffset := fun _ =>
  ⟨fun j _ => hostRead_of_content (r := .h j), fun j _ => hostRead_of_content (r := .cv j),
    fun i _ => hostRead_of_content (r := .m i), fun i _ => hostRead_of_content (r := .w i),
    fun i => hostRead_of_content (r := .k i) rfl, fun j => hostRead_of_content (r := .iv j) rfl,
    hostRead_of_content (r := .finfo) rfl, fun _ => hostRead_of_content (r := .msgBaseLo),
    fun _ => hostRead_of_content (r := .msgBaseHi), fun _ => hostRead_of_content (r := .msgLenLo),
    fun _ => hostRead_of_content (r := .msgLenHi)⟩

theorem State.ctxField_of_some {s : State} {x : Ctx} (h : s.ctx = some x) (f : Ctx → Word) :
    s.ctxField f = some (f x) := by
  simp [State.ctxField, h]

theorem State.ctxField_of_none {s : State} (h : s.ctx = none) (f : Ctx → Word) : s.ctxField f = none := by
  simp [State.ctxField, h]

/-- Settles O42: both halves are read from the one context, and the halves of a 64-bit value join to it. -/
theorem contextHalvesReadTogether : Obligations.ContextHalvesReadTogether := by
  intro s x hx
  have hread : ∀ (r : Reg) (f : Ctx → Word), r.content s = s.ctxField f → hostRead r.offset s = (s, some (f x)) :=
    fun r f hc => hostRead_of_content (hc.trans (State.ctxField_of_some hx f))
  exact ⟨⟨_, _, hread .curLo _ rfl, hread .curHi _ rfl, joinWords_halves _⟩,
    ⟨_, _, hread .remLo _ rfl, hread .remHi _ rfl, joinWords_halves _⟩,
    ⟨_, _, hread .tbitsLo _ rfl, hread .tbitsHi _ rfl, joinWords_halves _⟩,
    ⟨_, _, hread .nblkLo _ rfl, hread .nblkHi _ rfl, joinWords_halves _⟩,
    ⟨_, _, hread .bcntLo _ rfl, hread .bcntHi _ rfl, joinWords_halves _⟩,
    ⟨_, hread .lastc _ rfl, BitVec.toNat_setWidth_of_le (by decide)⟩⟩

/-! ### Registers that hold no value -/

/-- The registers that show the context, in the order of their offsets (R60). -/
def Reg.ctxRegs : List Reg :=
  [.curLo, .curHi, .remLo, .remHi, .tbitsLo, .tbitsHi, .nblkLo, .nblkHi, .bcntLo, .bcntHi, .lastc]

theorem Reg.content_of_ctx_none {s : State} (h : s.ctx = none) {r : Reg} (hr : r ∈ Reg.ctxRegs) :
    r.content s = none := by
  simp only [Reg.ctxRegs, List.mem_cons, List.not_mem_nil, or_false] at hr
  rcases hr with rfl | rfl | rfl | rfl | rfl | rfl | rfl | rfl | rfl | rfl | rfl <;> exact State.ctxField_of_none h _

theorem Reg.ctxRegs_offset (k : Fin 11) :
    ∃ r ∈ Reg.ctxRegs, r ≠ .cmd ∧ r.offset = BitVec.ofNat 12 (0x020 + 4 * k.val) := by
  revert k
  decide

theorem readsNothing_of_bot {s : State} (hf : s.fault = false) {r : Reg} {off : Nat}
    (ho : r.offset = BitVec.ofNat 12 off) (hlt : off < 2 ^ 12) (hr : r ≠ .cmd) (h : r.content s = none) :
    readsNothing s off := by
  refine ⟨_, ho ▸ hostRead_of_bot hr h, ?_⟩
  rw [readInfo, BitVec.setWidth_ofNat_of_le_of_lt (by decide) hlt]
  exact recordsFault_raise hf _ _

/-- Settles O40: a read at a register's offset answers by its content; by R28 and R60 the registers named hold none. -/
theorem hostReadReturnsWordOrFaults : Obligations.HostReadReturnsWordOrFaults := by
  refine ⟨fun r s hr => ⟨fun v => hostRead_of_content, fun hb hf => ⟨_, hostRead_of_bot hr hb, ?_⟩⟩,
    fun s j hs hp => hs.h_bot hp j, fun s hx r hr => Reg.content_of_ctx_none hx hr, fun s hf => ?_⟩
  · exact recordsFault_raise hf _ _
  · have hbot : ∀ (r : Reg) (off : Nat), r.offset = BitVec.ofNat 12 off → off < 2 ^ 12 → r ≠ .cmd →
        r.content s = none → readsNothing s off := fun _ _ => readsNothing_of_bot hf
    refine ⟨fun j => hbot (.h j) _ rfl (by omega) nofun, fun j => hbot (.cv j) _ rfl (by omega) nofun,
      fun i => hbot (.m i) _ rfl (by omega) nofun, fun i => hbot (.w i) _ rfl (by omega) nofun,
      hbot .msgBaseLo _ rfl (by decide) nofun, hbot .msgBaseHi _ rfl (by decide) nofun,
      hbot .msgLenLo _ rfl (by decide) nofun, hbot .msgLenHi _ rfl (by decide) nofun, fun hx k => ?_⟩
    obtain ⟨r, hmem, hr, ho⟩ := Reg.ctxRegs_offset k
    exact hbot r _ ho (by omega) hr (Reg.content_of_ctx_none hx hmem)

/-! ### While a fault stands -/

theorem hostRead_fst_of_faulted {s : State} (hf : s.fault = true) (off : BitVec 12) : (hostRead off s).1 = s := by
  rcases hostRead_fst off s with he | ⟨cause, info, -, he⟩
  · exact he
  · exact he.trans (s.raise_of_faulted cause info hf)

/-- A read returns data only where a register with a content stands. -/
theorem hostRead_snd_eq_none {off : BitVec 12} {s : State} (h : ∀ r, regAt off = some r → r.content s = none) :
    (hostRead off s).2 = none := by
  rcases hostRead_cases off s with ⟨r, v, hr, hv, -⟩ | he | he
  · cases (h r hr).symm.trans hv
  · rw [he]
  · rw [he]

/-- Settles O44: a fault standing stops the write at its first check, and a second fault entry changes nothing. -/
theorem faultedCoreIgnoresWrites : Obligations.FaultedCoreIgnoresWrites := by
  intro s hf
  refine ⟨fun off v => if_pos hf, fun r v _ => hostRead_of_content, hostRead_fst_of_faulted hf,
    fun r hb => hostRead_snd_eq_none fun q hq => ?_, fun off hnone => hostRead_snd_eq_none fun q hq => ?_, nofun, nofun⟩
  · cases (regAt_offset r).symm.trans hq
    exact hb
  · cases hnone.symm.trans hq

end Sys2Proof.Machine
end

section
/-! The message memory: canonical memories as sorted lists of what they read (R51), and a host write of a byte (R50). -/

namespace Sys2Proof.Machine

/-- A canonical memory lists exactly the bytes that read as something else than an unlisted address. -/
theorem Memory.mem_iff_read {mem : Memory} (h : mem.wf) (c : Host.Cell) :
    c ∈ mem ↔ mem.read c.1 = c.2 ∧ c.2 ≠ unlistedByte := by
  constructor
  · exact fun hc => ⟨Memory.read_of_mem h hc, h.2 c hc⟩
  · rintro ⟨hr, hne⟩
    have hmem := Memory.mem_of_read (hr ▸ hne)
    rwa [hr] at hmem

/-- Settles O53: the memories list the same bytes, in the order of their addresses. -/
theorem equalContentsAreEqualMemories : Obligations.EqualContentsAreEqualMemories := by
  intro mem mem' h h' hread
  have hsame : ∀ c, c ∈ mem ↔ c ∈ mem' := fun c => by
    rw [Memory.mem_iff_read h, Memory.mem_iff_read h', hread]
  have hsorted := List.pairwise_map.1 h.1
  have hsorted' := List.pairwise_map.1 h'.1
  have hperm : mem.Perm mem' :=
    (List.perm_ext_iff_of_nodup (hsorted.imp fun hlt heq => hlt.ne (congrArg _ heq))
      (hsorted'.imp fun hlt heq => hlt.ne (congrArg _ heq))).2 hsame
  exact hperm.eq_of_pairwise (fun _ _ _ _ hlt hgt => absurd hlt hgt.asymm) hsorted hsorted'

theorem step_of_poke {s : State} {addr : DWord} {b : Byte} {rest : List HostEvent}
    (h : s.pending = .poke addr b :: rest) : step s = hostPoke addr b (s.setPending rest) := by
  simp only [step, h, hostEvent]

/-- Settles O54: an existing byte is one write of a canonical memory, and no other field is written. -/
theorem hostPokeChangesOneByte : Obligations.HostPokeChangesOneByte := by
  intro s addr b rest hwf hq
  rw [step_of_poke hq]
  refine ⟨fun hlt => ⟨_, if_pos hlt, Memory.read_write_same hwf _ b, fun a ha => Memory.read_write_other hwf ha b,
    Memory.write_wf hwf _ b, ⟨rfl, rfl, rfl, rfl, ⟨rfl, rfl, rfl, rfl⟩, rfl, rfl, rfl⟩, ⟨rfl, rfl, rfl⟩, rfl, rfl, rfl,
    rfl⟩, fun hle => if_neg hle.not_gt⟩

end Sys2Proof.Machine
end

section
/-! The 32 bytes of a digest (R54). -/

namespace Sys2Proof.Machine

/-- Each bit of a word is a bit of one of its four bytes (R52). -/
theorem packWord_wordByte (x : Word) :
    packWord (wordByte x 0) (wordByte x 1) (wordByte x 2) (wordByte x 3) = x := by
  ext i hi
  grind [packWord, wordByte]

@[simp] theorem wordsToBytes_nil : wordsToBytes [] = [] := rfl

@[simp] theorem wordsToBytes_cons (x : Word) (xs : List Word) : wordsToBytes (x :: xs) =
    wordByte x 0 :: wordByte x 1 :: wordByte x 2 :: wordByte x 3 :: wordsToBytes xs := rfl

theorem length_wordsToBytes (xs : List Word) : (wordsToBytes xs).length = 4 * xs.length := by
  induction xs with
  | nil => rfl
  | cons x xs ih =>
    simp only [wordsToBytes_cons, List.length_cons, ih]
    omega

theorem wordsToBytes_injective : Function.Injective wordsToBytes := by
  intro xs ys h
  induction xs generalizing ys with
  | nil =>
    cases ys with
    | nil => rfl
    | cons y ys => cases h
  | cons x xs ih =>
    cases ys with
    | nil => cases h
    | cons y ys =>
      simp only [wordsToBytes_cons, List.cons.injEq] at h
      obtain ⟨h0, h1, h2, h3, hrest⟩ := h
      rw [← packWord_wordByte x, h0, h1, h2, h3, packWord_wordByte, ih hrest]

theorem digestBytes_inj {a b : Vector Word 8} : digestBytes a = digestBytes b ↔ a = b :=
  (wordsToBytes_injective.eq_iff).trans Vector.toList_inj

/-- Settles O29: each word is four bytes, and they determine it. -/
theorem byteEqualityIsWordEquality : Obligations.ByteEqualityIsWordEquality := fun a _ =>
  ⟨by rw [digestBytes, length_wordsToBytes, Vector.length_toList], digestBytes_inj⟩

end Sys2Proof.Machine
end

section
/-! What stops the model: a host write outside the message memory, or FILL with a context that reads outside it. -/

namespace Sys2Proof.Machine

theorem readsOutside_iff {x : Ctx} {s : State} : readsOutside x s = true ↔
    0 < consumedBytes x.rem.toNat ∧ s.memBytes < x.cur.toNat + consumedBytes x.rem.toNat := by
  simp [readsOutside]

/-- The bytes that an agreeing context has yet to read lie inside the message memory (R27). -/
theorem Ctx.Agrees.readsOutside_eq_false {x : Ctx} {s : State} (h : x.Agrees s.memBytes) : readsOutside x s = false := by
  rw [Bool.eq_false_iff, ne_eq, readsOutside_iff]
  have hin := h.inside
  have hle := consumedBytes_le_rem x.rem.toNat
  omega

theorem exec_fill_of_readsOutside {s : State} {x : Ctx} (hx : s.ctx = some x) (hne : x.bcnt ≠ x.nblk)
    (ho : readsOutside x s = true) : exec .fill s = .fault (.noSuchAddress (max x.cur.toNat s.memBytes)) := by
  simp [exec, execFill, hx, hne, ho]

/-- Settles O21: the address is the first one read that lies outside the memory. -/
theorem fillStopsOutsideMemory : Obligations.FillStopsOutsideMemory := by
  intro s x hx hne hrem hout
  have hpos : 0 < x.rem.toNat := Nat.pos_of_ne_zero fun h => hrem (BitVec.eq_of_toNat_eq h)
  refine ⟨_, exec_fill_of_readsOutside hx hne (readsOutside_iff.2 ⟨?_, hout⟩), le_max_right _ _, max_lt ?_ hout⟩
  · exact lt_min hpos (by decide)
  · omega

/-- The state has a context with which FILL would read outside the message memory. -/
def State.strayCtx (s : State) : Prop := ∃ x, s.ctx = some x ∧ readsOutside x s = true

theorem State.Inv.not_strayCtx {s : State} (hs : s.Inv) : ¬ s.strayCtx := by
  rintro ⟨x, hx, ho⟩
  exact absurd ho (by simp [(hs.ctx_agrees x hx).readsOutside_eq_false])

/-- A command has a next state, or the model stops at a stray context. -/
theorem exec_answers (i : Instr) (s : State) :
    (∃ t, exec i s = .next t) ∨ (∃ e, exec i s = .fault e) ∧ s.strayCtx := by
  cases i with
  | init => exact .inl ⟨_, rfl⟩
  | load =>
    rcases execLoad_cases s with ⟨x, -, he⟩ | ⟨cause, info, -, he⟩ <;> exact .inl ⟨_, he⟩
  | fill =>
    rcases execFill_cases s with ⟨-, he⟩ | ⟨x, hx, ⟨-, he⟩ | ⟨-, ho, he⟩ | ⟨-, -, he⟩⟩
    · exact .inl ⟨_, he⟩
    · exact .inl ⟨_, he⟩
    · exact .inr ⟨⟨_, he⟩, x, hx, ho⟩
    · exact .inl ⟨_, he⟩
  | sched =>
    rcases execSched_cases s with ⟨i, -, he⟩ | ⟨-, he⟩ <;> exact .inl ⟨_, he⟩
  | compress =>
    rcases execCompress_cases s with ⟨-, he⟩ | ⟨-, he⟩ | ⟨-, he⟩ <;> exact .inl ⟨_, he⟩
  | digest =>
    rcases execDigest_cases s with ⟨x, -, he⟩ | ⟨cause, info, -, he⟩ <;> exact .inl ⟨_, he⟩
  | cmp =>
    rcases execCmp_cases s with ⟨-, he⟩ | ⟨-, he⟩ <;> exact .inl ⟨_, he⟩

theorem hostWrite_answers (off : BitVec 12) (v : Word) (s : State) :
    (∃ t, hostWrite off v s = .next t) ∨ (∃ e, hostWrite off v s = .fault e) ∧ s.strayCtx := by
  rcases hostWrite_cases off v s with ⟨-, he⟩ | ⟨-, he⟩ | ⟨-, -, he⟩ | ⟨-, r, t, -, -, he⟩
  · exact .inl ⟨_, he⟩
  · exact .inl ⟨_, he⟩
  · rw [he]
    rcases issueCommand_cases v s with ⟨i, -, hi⟩ | ⟨e, -, hi⟩ <;> rw [hi]
    · exact exec_answers i s
    · exact .inl ⟨_, rfl⟩
  · exact .inl ⟨_, he⟩

/-- A step has a next state, or the model stops at a stray context or at a host write outside the memory. -/
theorem step_answers (s : State) :
    (∃ t, step s = .next t) ∨ (∃ e, step s = .fault e) ∧
      (s.strayCtx ∨ ∃ addr b rest, s.pending = .poke addr b :: rest ∧ s.memBytes ≤ addr.toNat) := by
  rcases step_cases s with ⟨-, he⟩ | ⟨off, v, rest, -, he⟩ | ⟨off, rest, -, he⟩ | ⟨rest, -, he⟩ | ⟨addr, b, rest, hq, he⟩
  · exact .inl ⟨_, he⟩
  · rw [he]
    exact (hostWrite_answers off v (s.setPending rest)).imp_right fun ⟨hfault, hctx⟩ => ⟨hfault, .inl hctx⟩
  · exact .inl ⟨_, he⟩
  · exact .inl ⟨_, he⟩
  · rw [he]
    rcases hostPoke_cases addr b (s.setPending rest) with ⟨-, hn⟩ | ⟨hle, hn⟩
    · exact .inl ⟨_, hn⟩
    · exact .inr ⟨⟨_, hn⟩, .inr ⟨addr, b, rest, hq, hle⟩⟩

/-- Settles O52: the invariant has no stray context. -/
theorem onlyOutsidePokeStops : Obligations.OnlyOutsidePokeStops := by
  refine ⟨fun s e hs h => ?_, fun s r h => ?_⟩
  · rcases step_answers s with ⟨t, ht⟩ | ⟨-, hctx | hpoke⟩
    · cases ht.symm.trans h
    · exact absurd hctx hs.not_strayCtx
    · exact hpoke
  · rcases step_answers s with ⟨t, ht⟩ | ⟨⟨e, he⟩, -⟩
    · cases ht.symm.trans h
    · cases he.symm.trans h

end Sys2Proof.Machine
end

section
/-! Two cores of a platform in either order (R71): without host writes of the message memory, a platform's step
replaces the state of the acting core and no other. -/

namespace Sys2Proof.Machine

/-- The cores of the platform hold one message memory wherever they share it. -/
def Platform.agreesOnMem (p : Platform) : Prop := p.sharedMem = true → ∀ a ∈ p.insts, ∀ b ∈ p.insts, a.mem = b.mem

/-- The platform with the state of core `j` replaced. -/
def Platform.setInst (p : Platform) (j : Nat) (t : State) : Platform := { p with insts := p.insts.set j t }

/-- A replacement that keeps the core's memory keeps the agreement. -/
theorem Platform.agreesOnMem.setInst {p : Platform} (hp : p.agreesOnMem) {j : Nat} {s t : State}
    (hs : p.insts[j]? = some s) (hmem : t.mem = s.mem) : (p.setInst j t).agreesOnMem := by
  intro hsh
  have hall : ∀ a ∈ p.insts.set j t, a.mem = s.mem := fun a ha => by
    rcases List.mem_or_eq_of_mem_set ha with ha | rfl
    · exact hp hsh a ha s (List.mem_of_getElem? hs)
    · exact hmem
  exact fun a ha b hb => (hall a ha).trans (hall b hb).symm

/-- The others see nothing of a step that leaves the memory they agree on as it was. -/
theorem Platform.map_seenBy {p : Platform} (hp : p.agreesOnMem) {j : Nat} {s t : State}
    (hs : p.insts[j]? = some s) (hmem : t.mem = s.mem) : p.insts.map (p.seenBy t) = p.insts := by
  have hsame : ∀ a ∈ p.insts, p.seenBy t a = a := fun a ha => by
    unfold Platform.seenBy
    split
    · have hmem' : t.mem = a.mem := hmem.trans (hp ‹_› s (List.mem_of_getElem? hs) a ha)
      rw [hmem']
      rfl
    · rfl
  exact (List.map_congr_left hsame).trans (List.map_id _)

theorem Platform.step_iff_of_noPoke {p q : Platform} (hp : p.agreesOnMem) {j : Nat} {s : State}
    (hs : p.insts[j]? = some s) (hn : noPoke s) :
    Platform.step j p = .next q ↔ ∃ t, Machine.step s = .next t ∧ q = p.setInst j t := by
  constructor
  · intro h
    obtain ⟨t, ht, rfl⟩ := Platform.step_next hs h
    rw [Platform.map_seenBy hp hs (step_mem_of_noPoke hn ht)]
    exact ⟨t, ht, rfl⟩
  · rintro ⟨t, ht, rfl⟩
    simp only [Platform.step, hs, ht, Platform.map_seenBy hp hs (step_mem_of_noPoke hn ht), Platform.setInst]

theorem Platform.run_pair_iff {p q : Platform} {j k : Nat} :
    Platform.run [j, k] p = .next q ↔ ∃ p', Platform.step j p = .next p' ∧ Platform.step k p' = .next q := by
  rw [Platform.run]
  cases Platform.step j p with
  | next p' =>
    simp only [Host.Outcome.next.injEq, exists_eq_left', Platform.run]
    cases Platform.step k p' <;> simp
  | fault e => simp
  | refused e => simp

/-- Two cores, one after the other: each takes the step it would take alone. -/
theorem Platform.run_pair_iff_of_noPoke {p q : Platform} (hp : p.agreesOnMem) {j k : Nat} {s u : State} (hjk : j ≠ k)
    (hs : p.insts[j]? = some s) (hu : p.insts[k]? = some u) (hns : noPoke s) (hnu : noPoke u) :
    Platform.run [j, k] p = .next q ↔
      ∃ t t', Machine.step s = .next t ∧ Machine.step u = .next t' ∧ q = (p.setInst j t).setInst k t' := by
  have hsecond : ∀ t, Machine.step s = .next t → (Platform.step k (p.setInst j t) = .next q ↔
      ∃ t', Machine.step u = .next t' ∧ q = (p.setInst j t).setInst k t') := fun t ht =>
    Platform.step_iff_of_noPoke (hp.setInst hs (step_mem_of_noPoke hns ht))
      ((List.getElem?_set_ne hjk).trans hu) hnu
  rw [Platform.run_pair_iff]
  constructor
  · rintro ⟨p', h, h'⟩
    obtain ⟨t, ht, rfl⟩ := (Platform.step_iff_of_noPoke hp hs hns).1 h
    obtain ⟨t', ht', rfl⟩ := (hsecond t ht).1 h'
    exact ⟨t, t', ht, ht', rfl⟩
  · rintro ⟨t, t', ht, ht', hq⟩
    exact ⟨_, (Platform.step_iff_of_noPoke hp hs hns).2 ⟨t, ht, rfl⟩, (hsecond t ht).2 ⟨t', ht', hq⟩⟩

/-- Settles O56: either order replaces the two cores' states by those that they reach alone. -/
theorem instancesCommute : Obligations.InstancesCommute := by
  intro p q j k s u hjk hs hu hns hnu hp h
  obtain ⟨t, t', ht, ht', rfl⟩ := (Platform.run_pair_iff_of_noPoke hp hjk hs hu hns hnu).1 h
  refine (Platform.run_pair_iff_of_noPoke hp hjk.symm hu hs hnu hns).2 ⟨t', t, ht', ht, ?_⟩
  simp only [Platform.setInst, List.set_comm t t' hjk]

end Sys2Proof.Machine
end

section
/-! Command words (R81 to R85): the decoder and the encoder are inverse to each other on the legal words, and a host
write to `CMD` runs the command that its word encodes. -/

namespace Sys2Proof.Machine

/-! ### The decoder and the encoder -/

@[simp] theorem decode_encode (i : Instr) : decode (encode i) = .ok i := by
  cases i <;> rfl

/-- A command word is its fields `RSVD` and `OP` (R80). -/
theorem toNat_eq_fields (v : Word) : v.toNat = 256 * (rsvdField v).toNat + (opField v).toNat := by
  simp only [rsvdField, opField, BitVec.extractLsb'_toNat, Nat.shiftRight_eq_div_pow]
  have := v.isLt
  omega

theorem commandWordWf_iff_fields (v : Word) : commandWordWf v = true ↔
    rsvdField v = 0 ∧ 0x01 ≤ (opField v).toNat ∧ (opField v).toNat ≤ 0x07 := by
  simp [commandWordWf, and_assoc]

theorem commandWordWf_encode (i : Instr) : commandWordWf (encode i) = true := by
  cases i <;> decide

/-- The legal words are the seven words of R82. -/
theorem commandWordWf_iff (v : Word) : commandWordWf v = true ↔ ∃ i, v = encode i := by
  constructor
  · intro h
    obtain ⟨hrsvd, hlow, hhigh⟩ := (commandWordWf_iff_fields v).1 h
    have hv : v.toNat = (opField v).toNat := by simp [toNat_eq_fields v, hrsvd]
    have hop : (opField v).toNat = 1 ∨ (opField v).toNat = 2 ∨ (opField v).toNat = 3 ∨ (opField v).toNat = 4
        ∨ (opField v).toNat = 5 ∨ (opField v).toNat = 6 ∨ (opField v).toNat = 7 := by omega
    rw [← hv] at hop
    rcases hop with h | h | h | h | h | h | h
    · exact ⟨.init, BitVec.eq_of_toNat_eq h⟩
    · exact ⟨.load, BitVec.eq_of_toNat_eq h⟩
    · exact ⟨.fill, BitVec.eq_of_toNat_eq h⟩
    · exact ⟨.sched, BitVec.eq_of_toNat_eq h⟩
    · exact ⟨.compress, BitVec.eq_of_toNat_eq h⟩
    · exact ⟨.digest, BitVec.eq_of_toNat_eq h⟩
    · exact ⟨.cmp, BitVec.eq_of_toNat_eq h⟩
  · rintro ⟨i, rfl⟩
    exact commandWordWf_encode i

/-- The decoder accepts legal words only (R85). -/
theorem commandWordWf_of_decode {v : Word} {i : Instr} (h : decode v = .ok i) : commandWordWf v = true := by
  rw [commandWordWf_iff_fields]
  unfold decode at h
  split at h
  · cases h
  · rename_i hrsvd
    refine ⟨not_not.1 hrsvd, ?_⟩
    split at h
    case h_8 => cases h
    all_goals omega

theorem decode_eq_ok_iff {v : Word} {i : Instr} : decode v = .ok i ↔ v = encode i := by
  constructor
  · intro h
    obtain ⟨j, rfl⟩ := (commandWordWf_iff v).1 (commandWordWf_of_decode h)
    cases (decode_encode j).symm.trans h
    rfl
  · rintro rfl
    exact decode_encode i

/-- Settles O2: the words that decode are the encoded ones, and those are the legal ones. -/
theorem decodeAndEncodeAgree : Obligations.DecodeAndEncodeAgree :=
  ⟨fun i _ => decode_encode i, fun _ _ => decode_eq_ok_iff.1,
    fun v => (commandWordWf_iff v).trans (exists_congr fun _ => decode_eq_ok_iff.symm)⟩

/-- Settles O1: seven encoded words, one unknown opcode and one word with a reserved bit set. -/
theorem commandWordsDecode : Obligations.CommandWordsDecode :=
  ⟨decode_encode .init, decode_encode .load, decode_encode .fill, decode_encode .sched, decode_encode .compress,
    decode_encode .digest, decode_encode .cmp, rfl, rfl⟩

/-! ### Writes to `CMD` -/

theorem hostWrite_cmd {s : State} (hf : s.fault = false) (v : Word) : hostWrite 0x000 v s = issueCommand v s := by
  rw [hostWrite, if_neg (by simp [hf])]
  rfl

theorem hostWrite_of_decode {s : State} (hf : s.fault = false) {v : Word} {i : Instr} (h : decode v = .ok i) :
    hostWrite 0x000 v s = exec i s := by
  simp only [hostWrite_cmd hf, issueCommand, h]

theorem hostWrite_of_illegal {s : State} (hf : s.fault = false) {v : Word} (h : ¬ commandWordWf v = true) :
    hostWrite 0x000 v s = .next (s.raise .illegalCmd v) := by
  rw [hostWrite_cmd hf]
  rcases issueCommand_cases v s with ⟨i, hd, -⟩ | ⟨e, -, he⟩
  · exact absurd (commandWordWf_of_decode hd) h
  · exact he

/-- Settles O3: the two clauses are the illegal words and the legal words. -/
theorem wordsAreCommandsOrIllegal : Obligations.WordsAreCommandsOrIllegal := by
  intro v s hf
  have hfields : commandWordWf v = true ↔
      v.extractLsb' 8 24 = 0 ∧ 0x01 ≤ (v.extractLsb' 0 8).toNat ∧ (v.extractLsb' 0 8).toNat ≤ 0x07 :=
    commandWordWf_iff_fields v
  refine ⟨fun hbad => ⟨_, hostWrite_of_illegal hf fun hwf => ?_, recordsFault_raise hf _ _⟩, fun hr h0 h8 => ?_⟩
  · obtain ⟨hrsvd, hlow, hhigh⟩ := hfields.1 hwf
    rcases hbad with h | h | h
    · exact h hrsvd
    · simp [h] at hlow
    · omega
  · have hlow : (v.extractLsb' 0 8).toNat ≠ 0 := fun h => h0 (BitVec.eq_of_toNat_eq h)
    obtain ⟨i, rfl⟩ := (commandWordWf_iff v).1 (hfields.2 ⟨hr, by omega, by omega⟩)
    exact ⟨i, rfl, hostWrite_of_decode hf (decode_encode i)⟩

theorem step_of_write {s : State} {off : BitVec 12} {v : Word} {rest : List HostEvent}
    (h : s.pending = .access (.write off v) :: rest) : step s = hostWrite off v (s.setPending rest) := by
  simp only [step, h, hostEvent, hostAccess]

/-- Settles O47: the event is a host write to `CMD`, and the rest of the list leaves `FAULT` as it is. -/
theorem stepRunsDecodedCommand : Obligations.StepRunsDecodedCommand := by
  intro s v rest i hq hf hd _
  rw [step_of_write hq]
  exact hostWrite_of_decode (s := s.setPending rest) hf hd

/-- A command word needs no more than the 32 bits of the table word that stands for it (R86). -/
theorem tableWord_toNat (v : Word) : tableWord 32 v.toNat = v := by
  rw [tableWord, Nat.mod_eq_of_lt v.isLt, BitVec.ofNat_toNat, BitVec.setWidth_eq]

/-- Settles O48: the event placed is the host's next one, and taking it off the list gives the state back. -/
theorem fetchedWordRunsNext : Obligations.FetchedWordRunsNext := by
  intro s i hf
  have hq : (s.withFetchWord 32 (encode i).toNat).pending = .access (.write 0x000 (encode i)) :: s.pending := by
    rw [State.withFetchWord, tableWord_toNat]
    rfl
  rw [step_of_write hq]
  exact hostWrite_of_decode (s := s) hf (decode_encode i)

end Sys2Proof.Machine
end

section
/-! The columns of writes and reads of R83: what a command that completes leaves as it was, and what its writes
depend on. -/

namespace Sys2Proof.Machine

/-! ### What a command leaves as it was -/

section Frame

variable {i : Instr} {s t : State}

theorem Completes.hash_phase_eq (h : Completes s i t) (hi : i = .load ∨ i = .fill ∨ i = .sched ∨ i = .cmp) :
    t.h = s.h ∧ t.phase = s.phase := by
  cases h with
  | load | fill | sched | cmp => exact ⟨rfl, rfl⟩
  | _ => simp at hi

theorem Completes.ctx_eq (h : Completes s i t) (hi : i = .init ∨ i = .sched ∨ i = .compress ∨ i = .cmp) :
    t.ctx = s.ctx := by
  cases h with
  | init | sched | compress | cmp => rfl
  | _ => simp at hi

theorem Completes.block_eq (h : Completes s i t)
    (hi : i = .init ∨ i = .load ∨ i = .sched ∨ i = .compress ∨ i = .cmp) : t.m = s.m := by
  cases h with
  | init | load | sched | compress | cmp => rfl
  | _ => simp at hi

theorem Completes.sched_eq (h : Completes s i t) (hi : i = .init ∨ i = .load ∨ i = .fill ∨ i = .cmp) :
    t.w = s.w := by
  cases h with
  | init | load | fill | cmp => rfl
  | _ => simp at hi

theorem Completes.freeCount_eq (h : Completes s i t) (hi : i ≠ .fill ∧ i ≠ .digest) :
    t.freeCount = s.freeCount := by
  cases h with
  | fill | digest => simp at hi
  | _ => rfl

/-- FILL completes only with a context, and keeps its message length and block count (R156). -/
theorem Completes.fill_ctx (h : Completes s .fill t) :
    ∃ x y, s.ctx = some x ∧ t.ctx = some y ∧ y.tbits = x.tbits ∧ y.nblk = x.nblk := by
  cases h with
  | fill hx => exact ⟨_, _, hx, s.materialise_ctx _, rfl, rfl⟩

/-- What no command writes: the compare value, the descriptor, all that lies outside the core, and, where it
completes, the fault record (R83). -/
theorem Completes.keeps (h : Completes s i t) :
    sameRecord s t ∧ t.cv = s.cv ∧ sameDescriptor s t ∧ sameOutside s t := by
  cases h with
  | digest hx =>
    obtain ⟨hcv, hbl, hbh, hll, hlh, hf, hc, hi, -, hmem, hlast, hp, hr⟩ := s.digestMessage_keeps _
    exact ⟨⟨hf, hc, hi⟩, hcv, ⟨hbl, hbh, hll, hlh⟩, fun a => by rw [hmem], hlast, hp, hr⟩
  | _ => exact ⟨⟨rfl, rfl, rfl⟩, rfl, ⟨rfl, rfl, rfl, rfl⟩, fun _ => rfl, rfl, rfl, rfl⟩

/-- Fault entry writes no register and nothing outside the core (R210). -/
theorem raisesFrom.keeps (h : raisesFrom s t) : sameRegisters s t ∧ sameOutside s t ∧ t.freeCount = s.freeCount := by
  obtain ⟨cause, info, -, rfl⟩ := h
  simp [sameRegisters, sameDescriptor, sameOutside]

/-- Fault entry that leaves `FAULT` finds a fault standing, and writes no second record (R212). -/
theorem raisesFrom.sameRecord_of_fault_eq (h : raisesFrom s t) (hf : t.fault = s.fault) : sameRecord s t := by
  have hs : s.fault = true := hf.symm.trans h.fault_eq
  obtain ⟨cause, info, -, rfl⟩ := h
  rw [State.raise_of_faulted _ _ _ hs]
  exact ⟨rfl, rfl, rfl⟩

end Frame

/-- Settles O31: a command that completes has the frame of its writes, and one that faults writes the record alone. -/
theorem commandsWriteOnlyTheirState : Obligations.CommandsWriteOnlyTheirState := by
  intro i s t h
  rcases exec_next h with hc | hr
  · obtain ⟨hrec, hcv, hdesc, hout⟩ := hc.keeps
    refine ⟨hc.hash_phase_eq, hc.ctx_eq, hc.block_eq, hc.sched_eq, ?_, ?_, fun _ => hrec, hc.eqFlag_eq,
      hc.freeCount_eq, hcv, hdesc, hout, hc.mem_eq⟩
    · rintro rfl x hx
      obtain ⟨x', y, hx', hy⟩ := hc.fill_ctx
      cases hx.symm.trans hx'
      exact ⟨y, hy⟩
    · rintro rfl hnone
      obtain ⟨x, -, hx, -⟩ := hc.fill_ctx
      cases hnone.symm.trans hx
  · obtain ⟨⟨hh, hm, hw, hcv, hdesc, hctx, hphase, heq⟩, hout, hfree⟩ := hr.keeps
    exact ⟨fun _ => ⟨hh, hphase⟩, fun _ => hctx, fun _ => hm, fun _ => hw, fun _ x hx => ⟨x, hctx.trans hx, rfl, rfl⟩,
      fun _ hnone => hctx.trans hnone, hr.sameRecord_of_fault_eq, fun _ => heq, fun _ => hfree, hcv, hdesc, hout,
      hr.mem_eq⟩

/-! ### What the writes of a command depend on -/

/-- What `Completes` says of a command is what `exec` answers. -/
theorem Completes.exec_eq {i : Instr} {s t : State} (h : Completes s i t) : exec i s = .next t := by
  cases h with
  | init => rfl
  | load hx => simp only [exec, execLoad, hx]
  | fill hx hne hin => simp [exec, execFill, hx, hne, hin]
  | sched hm => simp only [exec, execSched, State.block_of_whole hm]
  | compress hp hm hh =>
    rcases hp with hp | hp <;> simp [exec, execCompress, hp, State.compressM, State.block_of_whole hm, State.hash, hh]
  | digest hx => simp only [exec, execDigest, hx]
  | cmp hp hcv hh =>
    rw [exec_cmp_of_open hp]
    simp [State.compareCv, State.compareValue_of_whole hcv, State.hash, hh]

/-- A command that completes leaves `FAULT = 0` (R83). -/
theorem Completes.fault_eq_false {i : Instr} {s t : State} (h : Completes s i t) (hf : s.fault = false) :
    t.fault = false := by
  obtain ⟨⟨hfault, -⟩, -⟩ := h.keeps
  exact hfault.trans hf

/-- A next state with `FAULT = 0` is that of a command that completed (R210). -/
theorem completes_of_exec {i : Instr} {s t : State} (h : exec i s = .next t) (hf : t.fault = false) :
    Completes s i t :=
  (exec_next h).resolve_right fun hr => absurd hr.fault_eq (by simp [hf])

theorem State.descriptor_congr {s s' : State} (h : sameDescriptor s s') : s'.descriptor = s.descriptor := by
  obtain ⟨hbl, hbh, hll, hlh⟩ := h
  unfold State.descriptor
  rw [hbl, hbh, hll, hlh]

theorem State.memBytes_congr {s s' : State} (h : s'.memLast = s.memLast) : s'.memBytes = s.memBytes := by
  rw [State.memBytes, State.memBytes, h]

/-- `LoadCtx` reads the descriptor and the size of the memory (R172). -/
theorem loadCtx_congr {cw : Word} {s s' : State} (hd : sameDescriptor s s') (hm : s'.memLast = s.memLast) :
    loadCtx cw s' = loadCtx cw s := by
  unfold loadCtx
  rw [State.descriptor_congr hd, State.memBytes_congr hm]

theorem readsOutside_congr {x : Ctx} {s s' : State} (hm : s'.memLast = s.memLast) :
    readsOutside x s' = readsOutside x s := by
  rw [readsOutside, readsOutside, State.memBytes_congr hm]

/-- What a turn of DIGEST's block loop reads is the same in both states (R174). -/
structure SameLoopReads (s t : State) : Prop where
  h_eq : t.h = s.h
  ctx_eq : t.ctx = s.ctx
  mem_eq : t.mem = s.mem
  freeCount_eq : t.freeCount = s.freeCount

/-- The block and the schedule, which a turn of DIGEST's block loop writes and does not read, are the same. -/
def sameBlock (s t : State) : Prop := t.m = s.m ∧ t.w = s.w

theorem State.digestBlock_of_ctx {s : State} {x : Ctx} (hx : s.ctx = some x) :
    s.digestBlock = (s.materialise x).foldBlock (words s.h)
      (fill s.mem x.cur.toNat x.rem.toNat x.tbits).block := by
  simp [State.digestBlock, hx]

theorem State.digestBlock_of_no_ctx {s : State} (hx : s.ctx = none) : s.digestBlock = s := by
  simp [State.digestBlock, hx]

/-- A turn with a context writes all that the loop writes from what it reads. -/
theorem SameLoopReads.digestBlock {s s' : State} {x : Ctx} (h : SameLoopReads s s') (hx : s.ctx = some x) :
    SameLoopReads s.digestBlock s'.digestBlock ∧ sameBlock s.digestBlock s'.digestBlock := by
  rw [State.digestBlock_of_ctx hx, State.digestBlock_of_ctx (h.ctx_eq.trans hx)]
  constructor
  · constructor <;> simp [h.h_eq, h.mem_eq, h.freeCount_eq]
  · simp [sameBlock, h.h_eq, h.mem_eq]

/-- States that agree on all that the loop reads or writes still do after any number of turns. -/
theorem SameLoopReads.digestBlocks {s s' : State} (n : Nat) (h : SameLoopReads s s') (hb : sameBlock s s') :
    SameLoopReads (State.digestBlocks n s) (State.digestBlocks n s') ∧
      sameBlock (State.digestBlocks n s) (State.digestBlocks n s') := by
  induction n generalizing s s' with
  | zero => exact ⟨h, hb⟩
  | succ n ih =>
    simp only [State.digestBlocks]
    cases hx : s.ctx with
    | none =>
      rw [State.digestBlock_of_no_ctx hx, State.digestBlock_of_no_ctx (h.ctx_eq.trans hx)]
      exact ih h hb
    | some x =>
      obtain ⟨hnext, hblock⟩ := h.digestBlock hx
      exact ih hnext hblock

/-- A message has at least one block (R157). -/
theorem loadCtx_nblk_pos {cw : Word} {s : State} {x : Ctx} (hx : loadCtx cw s = .ok x) : 0 < x.nblk.toNat := by
  obtain ⟨base, len, -, hlen, -, rfl⟩ := loadCtx_ok.1 hx
  rw [Ctx.start_nblk hlen, nBlocks]
  omega

/-- DIGEST's first turn overwrites the block and the schedule it starts from, so they do not matter (R174). -/
theorem State.digestMessage_congr {s s' : State} {x : Ctx} (hpos : 0 < x.nblk.toNat) (hm : s'.mem = s.mem)
    (hn : s'.freeCount = s.freeCount) : SameLoopReads (s.digestMessage x) (s'.digestMessage x) ∧
      sameBlock (s.digestMessage x) (s'.digestMessage x) := by
  have hstart : SameLoopReads (s.startHash.setCtx x) (s'.startHash.setCtx x) := ⟨rfl, rfl, hm, hn⟩
  obtain ⟨hreads, hblock⟩ := hstart.digestBlock rfl
  obtain ⟨n, hx⟩ := Nat.exists_eq_succ_of_ne_zero hpos.ne'
  obtain ⟨hloop, hwritten⟩ := hreads.digestBlocks n hblock
  simp only [State.digestMessage, hx, State.digestBlocks]
  exact ⟨{ hloop with }, hwritten⟩

/-- Settles O32: the second state passes the checks of the first, and the writes are of the same operands. -/
theorem commandsReadOnlyTheirOperands : Obligations.CommandsReadOnlyTheirOperands := by
  intro i s s' t _ hf' he hft
  have hc := completes_of_exec he hft
  have key : ∀ {t' : State} {P : Prop}, Completes s' i t' → P → exec i s' = .next t' ∧ t'.fault = false ∧ P :=
    fun hc' hP => ⟨hc'.exec_eq, hc'.fault_eq_false hf', hP⟩
  refine ⟨?_, ?_, ?_, ?_, ?_, ?_, ?_⟩
  · rintro rfl
    cases hc
    exact ⟨_, key .init ⟨rfl, rfl⟩⟩
  · rintro rfl hd hlast
    cases hc with
    | load hx => exact ⟨_, key (.load ((loadCtx_congr hd hlast).trans hx)) rfl⟩
  · rintro rfl hctx hmem hlast hfree
    cases hc with
    | fill hx hne hin =>
      exact ⟨_, key (.fill (hctx.trans hx) hne ((readsOutside_congr hlast).trans hin)) (by simp [hmem, hfree])⟩
  · rintro rfl hm
    cases hc with
    | sched hb => exact ⟨_, key (.sched (hm ▸ hb)) (by simp [hm])⟩
  · rintro rfl hp hh hm
    cases hc with
    | compress hopen hb hhash =>
      exact ⟨_, key (.compress (hp ▸ hopen) (hm ▸ hb) (hh ▸ hhash)) (by simp [hm, hh])⟩
  · rintro rfl hd hmem hlast hfree
    cases hc with
    | digest hx =>
      obtain ⟨hloop, hm, hw⟩ := State.digestMessage_congr (loadCtx_nblk_pos hx) hmem hfree
      exact ⟨_, key (.digest ((loadCtx_congr hd hlast).trans hx)) ⟨hloop.h_eq, rfl, hloop.ctx_eq, hm, hw⟩⟩
  · rintro rfl hp hh hcv
    cases hc with
    | cmp hopen hb hhash => exact ⟨_, key (.cmp (hp ▸ hopen) (hcv ▸ hb) (hh ▸ hhash)) (by simp [hh, hcv])⟩

end Sys2Proof.Machine
end

section
/-! The host's transactions: the written form (R87) is read back by the assembler (R88), since its words are tokens of
digits that write the number they stand for; and the writes of SETMSG store the descriptor (R89). -/

namespace Sys2Proof.Machine

/-! ### Hexadecimal digits -/

/-- A character that the tokeniser takes into the word it reads. -/
def isPlain (c : Char) : Bool := !(c == ';' || isBlank c || c == ',' || c == '=')

/-- A spelling of the sixteen digits that the assembler reads: each digit has its value and is part of a word. -/
def readable (digits : List Char) : Prop :=
  ∀ d : Fin 16, digitValue (digits.getD d '0') = some d.val ∧ isPlain (digits.getD d '0') = true

theorem readable_upperDigits : readable upperDigits := by unfold readable; decide

theorem readable_lowerDigits : readable lowerDigits := by unfold readable; decide

theorem length_hexText (digits : List Char) (width n : Nat) : (hexText digits width n).length = width := by
  induction width generalizing n with
  | zero => rfl
  | succ width ih => simp [hexText, ih]

theorem isPlain_of_mem_hexText {digits : List Char} (hd : readable digits) {width n : Nat} {c : Char}
    (hc : c ∈ hexText digits width n) : isPlain c = true := by
  induction width generalizing n with
  | zero => cases hc
  | succ width ih =>
    rcases List.mem_append.1 hc with hc | hc
    · exact ih hc
    · rw [List.mem_singleton.1 hc]
      exact (hd ⟨n % 16, Nat.mod_lt n (by decide)⟩).2

/-- One more digit at the end of a number. -/
theorem numberFrom_append_digit {radix n d : Nat} {c : Char} (hc : digitValue c = some d) (hlt : d < radix) :
    ∀ (cs : List Char) {m : Nat}, numberFrom radix n cs = some m →
      numberFrom radix n (cs ++ [c]) = some (radix * m + d)
  | [], m, h => by
    cases h
    simp [numberFrom, hc, hlt]
  | c' :: cs, m, h => by
    simp only [List.cons_append, numberFrom] at h ⊢
    split at h
    · split at h
      · rw [if_pos ‹_›]
        exact numberFrom_append_digit hc hlt cs h
      · cases h
    · cases h

/-- The digits of a number that fits their width write that number. -/
theorem numberFrom_hexText {digits : List Char} (hd : readable digits) {width n : Nat} (hn : n < 16 ^ width) :
    numberFrom 16 0 (hexText digits width n) = some n := by
  induction width generalizing n with
  | zero =>
    cases Nat.lt_one_iff.1 hn
    rfl
  | succ width ih =>
    have hdigit := (hd ⟨n % 16, Nat.mod_lt n (by decide)⟩).1
    have hlead := ih (n := n / 16) (by omega)
    rw [hexText, numberFrom_append_digit hdigit (Nat.mod_lt n (by decide)) _ hlead, Nat.div_add_mod]

/-- A bit vector written with enough digits reads back as itself. -/
theorem fit_hexText {digits : List Char} (hd : readable digits) {k width : Nat} (x : BitVec k) (hpos : 0 < width)
    (hk : 2 ^ k ≤ 16 ^ width) : fit k (parseDigits 16 (hexText digits width x.toNat)) = some x := by
  have hne : hexText digits width x.toNat ≠ [] := List.ne_nil_of_length_pos (by rwa [length_hexText])
  have hparse : parseDigits 16 (hexText digits width x.toNat) = some x.toNat := by
    rw [parseDigits, if_neg (by simpa using hne), numberFrom_hexText hd (x.isLt.trans_le hk)]
  simp [hparse, fit, x.isLt]

/-! ### Tokens -/

/-- Plain characters are taken into the word that is being read. -/
theorem tokens_append_plain {cs : List Char} (hcs : ∀ c ∈ cs, isPlain c = true) (word : Token) (rest : List Char) :
    tokens word (cs ++ rest) = tokens (word ++ cs) rest := by
  induction cs generalizing word with
  | nil => simp
  | cons c cs ih =>
    have hc : isPlain c = true := hcs c (by simp)
    simp only [isPlain, Bool.not_eq_true', Bool.or_eq_false_iff] at hc
    obtain ⟨⟨⟨hsemi, hblank⟩, hcomma⟩, heq⟩ := hc
    rw [List.cons_append, tokens]
    simp [hsemi, hblank, hcomma, heq, ih fun c hc => hcs c (by simp [hc])]

theorem tokens_space (word : Token) (rest : List Char) : tokens word (' ' :: rest) = flush word ++ tokens [] rest := rfl

theorem flush_hexText (digits : List Char) {width : Nat} (hpos : 0 < width) (n : Nat) :
    flush (hexText digits width n) = [hexText digits width n] := by
  have hne : hexText digits width n ≠ [] := List.ne_nil_of_length_pos (by rwa [length_hexText])
  simp [flush, hne]

/-- A number at the end of a line is one token. -/
theorem tokens_hexText {digits : List Char} (hd : readable digits) {width : Nat} (hpos : 0 < width) (n : Nat) :
    tokens [] (hexText digits width n) = [hexText digits width n] := by
  have h := tokens_append_plain (fun _ hc => isPlain_of_mem_hexText hd hc) [] (rest := [])
    (cs := hexText digits width n)
  rw [List.append_nil] at h
  rw [h]
  exact flush_hexText digits hpos n

/-- A number before a blank is one token, and the rest of the line is read after it. -/
theorem tokens_hexText_space {digits : List Char} (hd : readable digits) {width : Nat} (hpos : 0 < width) (n : Nat)
    (rest : List Char) :
    tokens [] (hexText digits width n ++ ' ' :: rest) = hexText digits width n :: tokens [] rest := by
  rw [tokens_append_plain fun _ hc => isPlain_of_mem_hexText hd hc, tokens_space, List.nil_append,
    flush_hexText digits hpos]
  rfl

/-! ### Transactions -/

theorem tokens_text_write (off : BitVec 12) (v : Word) : tokens [] (Access.write off v).text =
    [['W'], hexText upperDigits 3 off.toNat, hexText lowerDigits 8 v.toNat] := by
  have h := tokens_hexText_space readable_upperDigits (width := 3) (by decide) off.toNat
    (hexText lowerDigits 8 v.toNat)
  rw [tokens_hexText readable_lowerDigits (by decide)] at h
  exact congrArg (['W'] :: ·) h

theorem tokens_text_read (off : BitVec 12) :
    tokens [] (Access.read off).text = [['R'], hexText upperDigits 3 off.toNat] :=
  congrArg (['R'] :: ·) (tokens_hexText readable_upperDigits (width := 3) (by decide) off.toNat)

/-- Settles O46: the first token selects the raw transaction, and the others read back as its offset and data. -/
theorem writtenTransactionsReadBack : Obligations.WrittenTransactionsReadBack := by
  have hoff : ∀ off : BitVec 12, fit 12 (parseDigits 16 (hexText upperDigits 3 off.toNat)) = some off := fun off =>
    fit_hexText readable_upperDigits off (by decide) (by decide)
  have hdata : ∀ v : Word, fit 32 (parseDigits 16 (hexText lowerDigits 8 v.toNat)) = some v := fun v =>
    fit_hexText readable_lowerDigits v (by decide) (by decide)
  rintro (⟨off, v⟩ | off)
  · have hop : ∀ args, parseOp (String.ofList ['W']) args = parseRawWrite args := fun _ => rfl
    simp [parseLine, tokens_text_write, hop, parseRawWrite, hoff, hdata, Stmt.wf]
  · have hop : ∀ args, parseOp (String.ofList ['R']) args = parseRawRead args := fun _ => rfl
    simp [parseLine, tokens_text_read, hop, parseRawRead, hoff, Stmt.wf]

/-! ### The pseudo-instruction SETMSG (R89) -/

theorem accessAll_write_cons {r : Reg} {v : Word} {s t : State} (hf : s.fault = false) (h : r.store v s = some t)
    (as : List Access) : accessAll (writeReg r v :: as) s = accessAll as t := by
  simp only [accessAll, writeReg, hostAccess, hostWrite_of_store hf h]

/-- The descriptor of `len` bytes at `base`, written in the order of R89. -/
def State.setDescriptor (base len : DWord) (s : State) : State :=
  (((s.setMsgBaseLo (base.extractLsb' 0 32)).setMsgBaseHi (base.extractLsb' 32 32)).setMsgLenLo
    (len.extractLsb' 0 32)).setMsgLenHi (len.extractLsb' 32 32)

/-- The four writes of SETMSG store the four words of the descriptor (R63, R89). -/
theorem accessAll_setmsg {s : State} (hf : s.fault = false) (base len : DWord) :
    accessAll (Stmt.setmsg base len).expand s = .next (s.setDescriptor base len) := by
  simp only [Stmt.expand, setmsgAccesses]
  rw [accessAll_write_cons hf rfl, accessAll_write_cons (by exact hf) rfl, accessAll_write_cons (by exact hf) rfl,
    accessAll_write_cons (by exact hf) rfl]
  rfl

/-- Settles O45: the four stores leave every other field. -/
theorem setmsgSetsDescriptor : Obligations.SetmsgSetsDescriptor := by
  intro s base len hf
  exact ⟨_, accessAll_setmsg hf base len, ⟨rfl, rfl, rfl, rfl⟩, rfl, rfl, rfl, rfl, rfl, rfl, rfl, ⟨rfl, rfl, rfl⟩,
    ⟨fun _ => rfl, rfl, rfl, rfl⟩, rfl⟩

end Sys2Proof.Machine
end

section
/-! The constants as fractional parts (R102): each word of the tables, put behind the integer part of its prime's root,
gives the root in units of `2 ^ -32`, rounded down. -/

namespace Sys2Proof.Machine

/-- In units of `2 ^ -32`: the integer part of the `n`-th root of `p`, with `w` as its 32 binary places. -/
def rootWithFraction (n p : Nat) (w : Word) : Nat := Nat.nthRoot n p * 2 ^ 32 + w.toNat

theorem rootWithFraction_mod (n p : Nat) (w : Word) : rootWithFraction n p w % 2 ^ 32 = w.toNat := by
  rw [rootWithFraction, Nat.mul_add_mod_self_right, Nat.mod_eq_of_lt w.isLt]

/-- With the words of `K` (R100) these are the integer cube roots of the scaled primes. -/
theorem rootWithFraction_K_bounds : ∀ i : Fin 64,
    rootWithFraction 3 (firstPrimes.getD i.val 0) K[i] ^ 3 ≤ firstPrimes.getD i.val 0 * 2 ^ 96
      ∧ firstPrimes.getD i.val 0 * 2 ^ 96 < (rootWithFraction 3 (firstPrimes.getD i.val 0) K[i] + 1) ^ 3 := by
  decide

/-- With the words of `IV` (R101) these are the integer square roots of the scaled primes. -/
theorem rootWithFraction_IV_bounds : ∀ j : Fin 8,
    rootWithFraction 2 (firstPrimes.getD j.val 0) IV[j] ^ 2 ≤ firstPrimes.getD j.val 0 * 2 ^ 64
      ∧ firstPrimes.getD j.val 0 * 2 ^ 64 < (rootWithFraction 2 (firstPrimes.getD j.val 0) IV[j] + 1) ^ 2 := by
  decide

/-- Settles O11: the root of each scaled prime is its integer part followed by the constant's 32 bits. -/
theorem constantsAreRootsOfPrimes : Obligations.ConstantsAreRootsOfPrimes := by
  constructor
  · intro i
    obtain ⟨hle, hlt⟩ := rootWithFraction_K_bounds i
    exact ⟨_, hle, hlt, (rootWithFraction_mod 3 _ K[i]).symm⟩
  · intro j
    obtain ⟨hle, hlt⟩ := rootWithFraction_IV_bounds j
    exact ⟨_, hle, hlt, (rootWithFraction_mod 2 _ IV[j]).symm⟩

end Sys2Proof.Machine
end

section
/-! The scheduler: the small sigma functions (R110), the schedule as a solution of its recurrence (R111), and the
command SCHED (R113). -/

namespace Sys2Proof.Machine

/-! ### The small sigma functions -/

theorem rotr_xor (x y : Word) {n : Nat} (hn : n < 32) : rotr (x ^^^ y) n = rotr x n ^^^ rotr y n := by
  ext i hi
  simp only [← BitVec.getLsbD_eq_getElem, BitVec.getLsbD_xor, getLsbD_rotr _ hn hi]

theorem shr_xor (x y : Word) (n : Nat) : shr (x ^^^ y) n = shr x n ^^^ shr y n :=
  BitVec.ushiftRight_xor_distrib x y n

theorem smallSigma0_eq (x : Word) : smallSigma0 x = x.rotateRight 7 ^^^ x.rotateRight 18 ^^^ (x >>> 3) := by
  rw [smallSigma0, xor3, rotr_eq_rotateRight x (by decide), rotr_eq_rotateRight x (by decide), shr]

theorem smallSigma1_eq (x : Word) : smallSigma1 x = x.rotateRight 17 ^^^ x.rotateRight 19 ^^^ (x >>> 10) := by
  rw [smallSigma1, xor3, rotr_eq_rotateRight x (by decide), rotr_eq_rotateRight x (by decide), shr]

theorem smallSigma0_xor (x y : Word) : smallSigma0 (x ^^^ y) = smallSigma0 x ^^^ smallSigma0 y := by
  simp only [smallSigma0, rotr_xor x y (n := 7) (by decide), rotr_xor x y (n := 18) (by decide), shr_xor, xor3_xor]

theorem smallSigma1_xor (x y : Word) : smallSigma1 (x ^^^ y) = smallSigma1 x ^^^ smallSigma1 y := by
  simp only [smallSigma1, rotr_xor x y (n := 17) (by decide), rotr_xor x y (n := 19) (by decide), shr_xor, xor3_xor]

theorem smallSigma0_zero : smallSigma0 0 = 0 := by decide

theorem smallSigma1_zero : smallSigma1 0 = 0 := by decide

/-- Settles O8: rotation and shift move bits, so they commute with a bitwise operation. -/
theorem smallSigmasAreLinear : Obligations.SmallSigmasAreLinear :=
  ⟨fun x => ⟨smallSigma0_eq x, smallSigma1_eq x⟩, fun x y => ⟨smallSigma0_xor x y, smallSigma1_xor x y⟩,
    smallSigma0_zero, smallSigma1_zero, by decide, by decide, by decide, by decide⟩

/-! ### The recurrence -/

/-- The word that R111 puts at index `i`, from the words before it. -/
def recurrenceWord (wt : Vector Word 64) (i : Nat) : Word :=
  wordAt wt (i - 16) + smallSigma0 (wordAt wt (i - 15)) + wordAt wt (i - 7) + smallSigma1 (wordAt wt (i - 2))

theorem recurrenceWord_congr {wt wt' : Vector Word 64} {i : Nat} (hi : 16 ≤ i)
    (h : ∀ j, j < i → wordAt wt' j = wordAt wt j) : recurrenceWord wt' i = recurrenceWord wt i := by
  simp only [recurrenceWord, h (i - 16) (by omega), h (i - 15) (by omega), h (i - 7) (by omega), h (i - 2) (by omega)]

theorem wordAt_scheduleStep_same {i : Nat} (hi : i < 64) (wt : Vector Word 64) :
    wordAt (scheduleStep i wt) i = recurrenceWord wt i := by
  rw [wordAt_eq _ hi]
  exact Vector.getElem_set!_self hi

theorem wordAt_scheduleStep_other {i j : Nat} (hj : j < 64) (hij : i ≠ j) (wt : Vector Word 64) :
    wordAt (scheduleStep i wt) j = wordAt wt j := by
  rw [wordAt_eq _ hj, wordAt_eq _ hj]
  exact Vector.getElem_set!_ne hj hij

/-- The words below `k` are those of the schedule of `b` (R111). -/
structure ScheduledBelow (b : Vector Word 16) (k : Nat) (wt : Vector Word 64) : Prop where
  block_eq : ∀ i, i < 16 → wordAt wt i = wordAt b i
  recurrence_eq : ∀ i, 16 ≤ i → i < k → wordAt wt i = recurrenceWord wt i

theorem wordAt_firstWords (b : Vector Word 16) {i : Nat} (hi : i < 16) : wordAt (firstWords b) i = wordAt b i := by
  rw [wordAt_eq _ (by omega), wordAt_eq _ hi]
  simp [firstWords, List.getElem_append_left, hi]

/-- A turn of the loop writes one word, from words that no later turn writes (R111). -/
theorem ScheduledBelow.step {b : Vector Word 16} {k : Nat} {wt : Vector Word 64} (h : ScheduledBelow b k wt)
    (hk : 16 ≤ k) (hlt : k < 64) : ScheduledBelow b (k + 1) (scheduleStep k wt) := by
  have hbelow : ∀ j, j < k → wordAt (scheduleStep k wt) j = wordAt wt j := fun j hj =>
    wordAt_scheduleStep_other (hj.trans hlt) hj.ne' wt
  refine ⟨fun i hi => (hbelow i (by omega)).trans (h.block_eq i hi), fun i hi hik => ?_⟩
  rw [recurrenceWord_congr hi fun j hj => hbelow j (by omega)]
  rcases Nat.lt_succ_iff_lt_or_eq.1 hik with hik | rfl
  · exact (hbelow i hik).trans (h.recurrence_eq i hi hik)
  · exact wordAt_scheduleStep_same hlt wt

theorem schedule_scheduledBelow (b : Vector Word 16) : ScheduledBelow b 64 (schedule b) := by
  have hfirst : ScheduledBelow b 16 (firstWords b) :=
    ⟨fun _ hi => wordAt_firstWords b hi, fun _ hi hlt => absurd hlt (Nat.not_lt.2 hi)⟩
  unfold schedule
  exact forUp_induct (n := 48) hfirst fun _ _ hk hlt h => h.step hk hlt

/-- Settles O12: the loop's invariant after its last turn. -/
theorem scheduleFollowsRecurrence : Obligations.ScheduleFollowsRecurrence := fun b =>
  have h := schedule_scheduledBelow b
  ⟨h.block_eq, h.recurrence_eq⟩

/-- Every word of the recurrence from sixteen zeros is zero. -/
theorem schedule_zero : schedule (Vector.replicate 16 0) = Vector.replicate 64 0 := by
  have h := schedule_scheduledBelow (Vector.replicate 16 0)
  have hzero : ∀ i, i < 64 → wordAt (schedule (Vector.replicate 16 0)) i = 0 := by
    intro i hi
    induction i using Nat.strong_induction_on with
    | _ i ih =>
      rcases Nat.lt_or_ge i 16 with hlt | hge
      · rw [h.block_eq i hlt, wordAt_eq _ hlt, Vector.getElem_replicate]
      · have hbefore : ∀ d, 0 < d → wordAt (schedule (Vector.replicate 16 0)) (i - d) = 0 := fun d hd =>
          ih (i - d) (by omega) (by omega)
        rw [h.recurrence_eq i hge hi, recurrenceWord]
        simp only [hbefore, Nat.ofNat_pos, smallSigma0_zero, smallSigma1_zero, add_zero]
  ext1 i hi
  rw [← wordAt_eq _ hi, hzero i hi, Vector.getElem_replicate]

/-! ### The command SCHED -/

theorem eq_written_iff {n : Nat} {v : Vector (Option Word) n} {b : Vector Word n} :
    v = written b ↔ ∀ i : Fin n, v[i] = some b[i] := by
  constructor
  · rintro rfl i
    exact written_get b i.val i.isLt
  · intro h
    ext1 i hi
    rw [written_get]
    exact h ⟨i, hi⟩

theorem exec_sched_of_block {s : State} {b : Vector Word 16} (h : s.m = written b) :
    exec .sched s = .next (s.setW (schedule b)) := by
  have hc : Completes s .sched (s.setW (schedule (words s.m))) := .sched (by rw [h, lowestBot_written])
  rw [hc.exec_eq, h, words_written]

theorem exec_sched_of_bot {s : State} {i : Nat} (h : lowestBot s.m = some i) :
    exec .sched s = .next (s.raise .uninitRead (elementOffset 0x0C0 i)) := by
  rcases execSched_cases s with ⟨j, hj, he⟩ | ⟨hnone, -⟩
  · cases h.symm.trans hj
    exact he
  · cases h.symm.trans hnone

/-- Settles O13: SCHED reads the block alone and writes `W` alone, so a second one writes the same words. -/
theorem schedWritesSchedule : Obligations.SchedWritesSchedule := by
  refine ⟨rfl, fun s b hm => ?_, fun s i hf hi => ?_, schedule_zero, ?_⟩
  · have hblock : s.m = written b := eq_written_iff.2 hm
    exact ⟨s.setW (schedule b), exec_sched_of_block hblock, eq_written_iff.1 rfl, rfl, rfl, rfl, rfl, rfl,
      ⟨rfl, rfl, rfl, rfl⟩, rfl, ⟨rfl, rfl, rfl⟩, ⟨fun _ => rfl, rfl, rfl, rfl⟩, rfl, exec_sched_of_block hblock⟩
  · rw [← elementOffset_ofNat]
    exact ⟨_, exec_sched_of_bot (lowestUnwritten_iff.1 hi), recordsFault_raise hf _ _⟩
  · -- the example words of R113
    decide +kernel

end Sys2Proof.Machine
end

section
/-! The compression core: the big sigma functions (R130), `Ch` and `Maj` bit by bit (R131, R132), the working variables
after each round (R133 to R137), the eight-iteration form (R139), and the command COMPRESS (R138). -/

namespace Sys2Proof.Machine

/-! ### The big sigma functions -/

theorem bigSigma0_eq (x : Word) :
    bigSigma0 x = x.rotateRight 2 ^^^ x.rotateRight 13 ^^^ x.rotateRight 22 := by
  rw [bigSigma0, xor3, rotr_eq_rotateRight x (by decide), rotr_eq_rotateRight x (by decide),
    rotr_eq_rotateRight x (by decide)]

theorem bigSigma1_eq (x : Word) :
    bigSigma1 x = x.rotateRight 6 ^^^ x.rotateRight 11 ^^^ x.rotateRight 25 := by
  rw [bigSigma1, xor3, rotr_eq_rotateRight x (by decide), rotr_eq_rotateRight x (by decide),
    rotr_eq_rotateRight x (by decide)]

/-- Settles O9: the shifts of R14 by these amounts are rotations; the rest are single words. -/
theorem bigSigmasRotate : Obligations.BigSigmasRotate :=
  ⟨fun x => ⟨bigSigma0_eq x, bigSigma1_eq x⟩, by decide, by decide, by decide, by decide, by decide, by decide⟩

/-! ### `Ch` and `Maj` -/

/-- A bit of `e` selects the bit of `f` or of `g` (R131). -/
theorem getLsbD_ch (e f g : Word) {i : Nat} (hi : i < 32) :
    (ch e f g).getLsbD i = if e.getLsbD i then f.getLsbD i else g.getLsbD i := by
  rw [ch, BitVec.getLsbD_xor, BitVec.getLsbD_and, BitVec.getLsbD_and, BitVec.getLsbD_not, decide_eq_true hi]
  cases e.getLsbD i <;> simp

/-- A bit of `Maj` is the vote of the three bits (R132). -/
theorem getLsbD_maj_iff (a b c : Word) (i : Nat) : (maj a b c).getLsbD i = true ↔
    2 ≤ (a.getLsbD i).toNat + (b.getLsbD i).toNat + (c.getLsbD i).toNat := by
  rw [maj, getLsbD_xor3, BitVec.getLsbD_and, BitVec.getLsbD_and, BitVec.getLsbD_and]
  generalize a.getLsbD i = x, b.getLsbD i = y, c.getLsbD i = z
  revert x y z
  decide

/-- The literal that `simp` leaves of the word of ones. -/
theorem allOnes32_and (x : Word) : 0xffffffff#32 &&& x = x := BitVec.allOnes_and

theorem ch_allOnes (f g : Word) : ch 0xffffffff f g = f := by simp [ch, allOnes32_and]

theorem ch_zero (f g : Word) : ch 0 f g = g := by simp [ch, allOnes32_and]

theorem maj_self (x y : Word) : maj x x y = x := by
  rw [maj, xor3, BitVec.and_self, BitVec.xor_assoc, BitVec.xor_self, BitVec.xor_zero]

theorem maj_allOnes_zero (c : Word) : maj 0xffffffff 0 c = c := by
  simp [maj, xor3, allOnes32_and]

/-- Settles O10: each bit by its truth table, and the corner cases by the laws of bitwise operations. -/
theorem choiceSelectsAndMajorityVotes : Obligations.ChoiceSelectsAndMajorityVotes :=
  ⟨fun e f g _ hi => getLsbD_ch e f g hi, fun a b c i _ => getLsbD_maj_iff a b c i,
    fun f g => ⟨ch_allOnes f g, ch_zero f g⟩, fun x y c => ⟨maj_self x y, maj_allOnes_zero c⟩, by decide, by decide⟩

/-! ### The working variables after each round -/

/-- The working variables after the first `i` rounds of `Compress(hs, blk)` (R134, R135). -/
def workingAt (hs : Vector Word 8) (blk : Vector Word 16) (i : Nat) : Working :=
  forUp (shaRound (schedule blk)) i 0 (Working.ofHash hs)

theorem workingAt_zero (hs : Vector Word 8) (blk : Vector Word 16) : workingAt hs blk 0 = Working.ofHash hs := rfl

theorem workingAt_succ (hs : Vector Word 8) (blk : Vector Word 16) (i : Nat) :
    workingAt hs blk (i + 1) = shaRound (schedule blk) i (workingAt hs blk i) := by
  rw [workingAt, forUp_last, Nat.zero_add, workingAt]

theorem compress_hash (hs : Vector Word 8) (blk : Vector Word 16) :
    (compress hs blk).hash = feedForward hs (workingAt hs blk 64) := by
  rw [compress, workingAt]

theorem compress_sched (hs : Vector Word 8) (blk : Vector Word 16) : (compress hs blk).sched = schedule blk := by
  rw [compress]

/-- `temp1` of R133 with the round constant and the schedule word as elements of their arrays. -/
theorem temp1_eq (wt : Vector Word 64) (i : Fin 64) (e f g h : Word) :
    temp1 wt i e f g h = h + bigSigma1 e + ch e f g + K[i] + wt[i] := by
  rw [temp1, wordAt_eq K i.isLt, wordAt_eq wt i.isLt]; rfl

theorem compress_zero_hash : (compress (Vector.replicate 8 0) (Vector.replicate 16 0)).hash =
    #v[0x7ca51614, 0x425c3ba8, 0xce54dd2f, 0xc2020ae7, 0xb6e574d1, 0x98136d0f, 0xae7e26cc, 0xbf0be7a6] := by
  decide +kernel

theorem compress_abc_hash : (compress IV abcWords).hash = abcDigest := by decide +kernel

/-- Settles O15: the sequences are the fields of the working variables after each round. -/
theorem roundsFollowEquations : Obligations.RoundsFollowEquations := by
  refine ⟨fun hs blk => ⟨compress_sched hs blk, ?_⟩, compress_zero_hash, compress_abc_hash⟩
  let v := workingAt hs blk
  refine ⟨fun i => (v i).a, fun i => (v i).b, fun i => (v i).c, fun i => (v i).d, fun i => (v i).e, fun i => (v i).f,
    fun i => (v i).g, fun i => (v i).h, rfl, rfl, rfl, rfl, rfl, rfl, rfl, rfl, ?_, ?_⟩
  · intro i t1 t2
    have ht1 : temp1 (schedule blk) i (v i).e (v i).f (v i).g (v i).h = t1 := temp1_eq (schedule blk) i _ _ _ _
    have hround : v (i + 1) = ⟨t1 + t2, (v i).a, (v i).b, (v i).c, (v i).d + t1, (v i).e, (v i).f, (v i).g⟩ := by
      rw [← ht1]; exact workingAt_succ hs blk i
    simp only [hround, and_self]
  · rw [compress_hash]
    exact ⟨rfl, rfl, rfl, rfl, rfl, rfl, rfl, rfl⟩

/-! ### The eight-iteration form -/

/-- A loop whose turns are each `k` turns of another loop is that loop. -/
theorem forUp_blocks {σ : Type} {body block : Nat → σ → σ} {k : Nat}
    (hblock : ∀ i s, block i s = forUp body k (k * i) s) (n i : Nat) (s : σ) :
    forUp block n i s = forUp body (k * n) (k * i) s := by
  induction n generalizing i s with
  | zero => rfl
  | succ n ih =>
    calc forUp block (n + 1) i s
        = forUp body (k * n) (k * (i + 1)) (block i s) := by rw [forUp_succ, ih]
      _ = forUp body (k * n) (k * i + k) (forUp body k (k * i) s) := by rw [hblock, Nat.mul_succ]
      _ = forUp body (k * (n + 1)) (k * i) s := by rw [← forUp_add, Nat.mul_succ, Nat.add_comm k]

/-- Eight rounds bring every variable back to its name (R139). -/
theorem eightRounds_eq (wt : Vector Word 64) (i : Nat) (v : Working) :
    eightRounds wt i v = forUp (shaRound wt) 8 i v := rfl

/-- Settles O14: eight iterations of eight rounds are the 64 rounds. -/
theorem unrolledFormEqualsLoop : Obligations.UnrolledFormEqualsLoop := by
  intro hs b
  have hloop : forUp (fun n v => eightRounds (schedule b) (8 * n) v) 8 0 (Working.ofHash hs) = workingAt hs b 64 :=
    forUp_blocks (fun n v => eightRounds_eq (schedule b) (8 * n) v) 8 0 (Working.ofHash hs)
  rw [compressUnrolled, hloop, ← compress_hash, ← compress_sched]

/-! ### The command COMPRESS -/

theorem exec_compress_of_words {s : State} {hs : Vector Word 8} {b : Vector Word 16}
    (hp : s.phase = .initialized ∨ s.phase = .updated) (hh : s.h = written hs) (hm : s.m = written b) :
    exec .compress s = .next (s.foldBlock hs b) := by
  have hc : Completes s .compress (s.foldBlock (words s.h) (words s.m)) :=
    .compress hp (by rw [hm, lowestBot_written]) (by rw [hh, lowestBot_written])
  rw [hc.exec_eq, hh, hm, words_written, words_written]

theorem exec_compress_of_uninit {s : State} (h : s.phase = .uninit) :
    exec .compress s = .next (s.raise .uninitRead 0x080) := by
  simpa [h] using execCompress_cases s

theorem exec_compress_of_final {s : State} (h : s.phase = .final) :
    exec .compress s = .next (s.raise .finalized 0x00000005) := by
  simpa [h] using execCompress_cases s

theorem exec_compress_of_bot {s : State} {i : Nat} (hp : s.phase = .initialized ∨ s.phase = .updated)
    (h : lowestBot s.m = some i) : exec .compress s = .next (s.raise .uninitRead (elementOffset 0x0C0 i)) := by
  have hopen : exec .compress s = .next s.compressM := by
    rcases hp with hp | hp <;> simpa [hp] using execCompress_cases s
  have hbot : s.compressM = s.raise .uninitRead (elementOffset 0x0C0 i) := by
    simpa [h] using s.compressM_cases
  rw [hopen, hbot]

/-- Settles O16: COMPRESS looks at `PHASE`, then at the block, and writes `W`, `H` and `PHASE` alone. -/
theorem compressFoldsBlock : Obligations.CompressFoldsBlock := by
  refine ⟨rfl, fun s hs b hp hh hm => ?_, compress_abc_hash, fun s hf => ⟨fun hu => ?_, fun hfin => ?_, ?_⟩⟩
  · refine ⟨s.foldBlock hs b, exec_compress_of_words hp (eq_written_iff.2 hh) (eq_written_iff.2 hm),
      eq_written_iff.1 ?_, eq_written_iff.1 rfl, rfl, rfl, rfl, rfl, ⟨rfl, rfl, rfl, rfl⟩, rfl, ⟨rfl, rfl, rfl⟩,
      ⟨fun _ => rfl, rfl, rfl, rfl⟩, rfl⟩
    rw [State.foldBlock_w, compress_sched]
  · exact ⟨_, exec_compress_of_uninit hu, recordsFault_raise hf _ _⟩
  · exact ⟨_, exec_compress_of_final hfin, recordsFault_raise hf _ _⟩
  · intro i hp hi
    rw [← elementOffset_ofNat]
    exact ⟨_, exec_compress_of_bot hp (lowestUnwritten_iff.1 hi), recordsFault_raise hf _ _⟩

end Sys2Proof.Machine
end

section
/-! The block filler byte by byte (R151), its five cases (R154), and the block count (R157). -/

namespace Sys2Proof.Machine

/-- Settles O18: both bounds of the ceiling are linear, and the values are of single lengths. -/
theorem blockCountIsExactCeiling : Obligations.BlockCountIsExactCeiling := by
  refine ⟨fun len => ?_, rfl, rfl, rfl, rfl, rfl, rfl, by decide⟩
  rw [nBlocks]
  omega

/-! ### One byte of a block -/

theorem markerWritten_iff {c : Nat} {tbits : DWord} :
    markerWritten c tbits = true ↔ c < 64 ∧ (0 < c ∨ tbits.toNat % 512 = 0) := by
  simp [markerWritten]

/-- The length field fits behind at most 55 message bytes, with or without the marker (R153). -/
theorem lengthFits_iff {c : Nat} {tbits : DWord} : lengthFits c tbits = true ↔ c < 56 := by
  have hused : c < 64 ∧ usedWords c tbits ≤ 14 ↔ c < 56 := by
    cases hm : markerWritten c tbits with
    | true => rw [usedWords, if_pos hm]; omega
    | false =>
      have hno : ¬(c < 64 ∧ (0 < c ∨ tbits.toNat % 512 = 0)) := by simp [← markerWritten_iff, hm]
      rw [usedWords, if_neg (by simp [hm])]
      omega
  simpa [lengthFits] using hused

section FillByte

variable {mem : Memory} {cur c k : Nat} {tbits : DWord}

theorem fillByte_length (hc : c < 56) (hk : 56 ≤ k) : fillByte mem cur c tbits k = lengthByte tbits (k - 56) := by
  simp [fillByte, lengthFits_iff.2 hc, hk]

/-- Outside the length field, a byte is the marker, a message byte or zero. -/
theorem fillByte_of_no_length (h : c < 56 → k < 56) : fillByte mem cur c tbits k =
    if markerWritten c tbits = true ∧ k = c then 0x80 else if k < c then mem.read (cur + k) else 0x00 := by
  have hno : ¬(lengthFits c tbits = true ∧ 56 ≤ k) := by
    rw [lengthFits_iff]; exact fun ⟨hc, hk⟩ => absurd (h hc) (Nat.not_lt.2 hk)
  simp only [fillByte, Bool.and_eq_true, decide_eq_true_eq, if_neg hno]

theorem fillByte_message (hk : k < c) : fillByte mem cur c tbits k = mem.read (cur + k) := by
  rw [fillByte_of_no_length hk.trans, if_neg fun h => hk.ne h.2, if_pos hk]

theorem fillByte_marker (hm : markerWritten c tbits = true) : fillByte mem cur c tbits c = 0x80 := by
  rw [fillByte_of_no_length id, if_pos ⟨hm, rfl⟩]

theorem fillByte_zero (h : c < 56 → k < 56) (hk : c ≤ k) (hm : markerWritten c tbits = true → k ≠ c) :
    fillByte mem cur c tbits k = 0x00 := by
  rw [fillByte_of_no_length h, if_neg fun h => hm h.1 h.2, if_neg (Nat.not_lt.2 hk)]

/-! ### The parts of a block -/

theorem map_fillByte_message : (List.range c).map (fillByte mem cur c tbits) = messageBytes mem cur c := by
  rw [messageBytes_eq_map]
  exact List.map_congr_left fun k hk => fillByte_message (List.mem_range.1 hk)

theorem map_fillByte_zeros {first n : Nat} (h : c < 56 → first + n ≤ 56) (hc : c ≤ first)
    (hm : markerWritten c tbits = true → first ≠ c) :
    (List.range' first n).map (fillByte mem cur c tbits) = List.replicate n 0x00 := by
  rw [List.eq_replicate_iff, List.length_map, List.length_range', List.forall_mem_map]
  refine ⟨rfl, fun k hk => ?_⟩
  rw [List.mem_range'_1] at hk
  exact fillByte_zero (by omega) (by omega) fun h => by have := hm h; omega

theorem map_fillByte_length (hc : c < 56) :
    (List.range' 56 8).map (fillByte mem cur c tbits) = lengthField tbits := by
  have hbyte : ∀ k ∈ List.range' 56 8, fillByte mem cur c tbits k = lengthByte tbits (k - 56) := fun k hk =>
    fillByte_length hc (List.mem_range'_1.1 hk).1
  rw [List.map_congr_left hbyte]
  rfl

end FillByte

theorem range_eq_append_cons {c n : Nat} (h : c < n) :
    List.range n = List.range c ++ c :: List.range' (c + 1) (n - 1 - c) := by
  have happ := List.range'_append_1 (s := 0) (m := c) (n := n - 1 - c + 1)
  rw [Nat.zero_add, List.range'_succ, show c + (n - 1 - c + 1) = n by omega] at happ
  rw [List.range_eq_range', List.range_eq_range', happ]

/-! ### The bytes of a block -/

section Block

variable (mem : Memory) (cur : Nat) {r : Nat} (tbits : DWord)

theorem consumedBytes_of_lt (h : r < 64) : consumedBytes r = r := Nat.min_eq_left h.le

theorem consumedBytes_of_ge (h : 64 ≤ r) : consumedBytes r = 64 := Nat.min_eq_right h

/-- Case A of R154. -/
theorem fill_bytes_of_full (h : 64 ≤ r) :
    wordsToBytes (fill mem cur r tbits).block.toList = messageBytes mem cur 64 := by
  rw [wordsToBytes_fill, consumedBytes_of_ge h, map_fillByte_message]

/-- Case B of R154. -/
theorem fill_bytes_of_marker_last (h : 56 ≤ r) (hr : r < 64) : wordsToBytes (fill mem cur r tbits).block.toList =
    messageBytes mem cur r ++ 0x80 :: List.replicate (63 - r) 0x00 := by
  have hm : markerWritten r tbits = true := markerWritten_iff.2 ⟨hr, .inl (by omega)⟩
  rw [wordsToBytes_fill, consumedBytes_of_lt hr, range_eq_append_cons hr, List.map_append, List.map_cons,
    map_fillByte_message, fillByte_marker hm, map_fillByte_zeros (by omega) (by omega) (by omega)]

/-- Cases C and D of R154: the marker and the length field in one block. -/
theorem fill_bytes_of_marker_and_length (hm : markerWritten r tbits = true) (hr : r < 56) :
    wordsToBytes (fill mem cur r tbits).block.toList =
      messageBytes mem cur r ++ 0x80 :: List.replicate (55 - r) 0x00 ++ lengthField tbits := by
  have hsplit : List.range 64 = List.range r ++ r :: List.range' (r + 1) (55 - r) ++ List.range' 56 8 := by
    rw [← range_eq_append_cons (n := 56) hr]; rfl
  rw [wordsToBytes_fill, consumedBytes_of_lt (by omega), hsplit, List.map_append, List.map_append, List.map_cons,
    map_fillByte_message, fillByte_marker hm, map_fillByte_zeros (by omega) (by omega) (by omega),
    map_fillByte_length hr]

/-- Case E of R154. -/
theorem fill_bytes_of_length_only (h : tbits.toNat % 512 ≠ 0) :
    wordsToBytes (fill mem cur 0 tbits).block.toList = List.replicate 56 0x00 ++ lengthField tbits := by
  have hm : markerWritten 0 tbits = true → 0 ≠ 0 := fun hm => by simp [markerWritten_iff, h] at hm
  have hsplit : List.range 64 = List.range' 0 56 ++ List.range' 56 8 := rfl
  rw [wordsToBytes_fill, consumedBytes_of_lt (by omega), hsplit, List.map_append,
    map_fillByte_zeros (by omega) (by omega) hm, map_fillByte_length (by omega)]

/-! ### The words that hold the length field and a lone marker -/

theorem packWord_extractLsb' (n : Nat) : packWord (tbits.extractLsb' (n + 24) 8) (tbits.extractLsb' (n + 16) 8)
    (tbits.extractLsb' (n + 8) 8) (tbits.extractLsb' n 8) = tbits.extractLsb' n 32 := by
  have hjoin : ∀ first len, tbits.extractLsb' (first + 8) len ++ tbits.extractLsb' first 8 =
      tbits.extractLsb' first (len + 8) := fun _ _ => BitVec.extractLsb'_append_extractLsb'_eq_extractLsb' rfl
  rw [packWord, hjoin (n + 16) 8, hjoin (n + 8) 16, hjoin n 24]

theorem packWord_lengthByte_high :
    packWord (lengthByte tbits 0) (lengthByte tbits 1) (lengthByte tbits 2) (lengthByte tbits 3) =
      tbits.extractLsb' 32 32 := packWord_extractLsb' tbits 32

theorem packWord_lengthByte_low :
    packWord (lengthByte tbits 4) (lengthByte tbits 5) (lengthByte tbits 6) (lengthByte tbits 7) =
      tbits.extractLsb' 0 32 := packWord_extractLsb' tbits 0

/-- Words 14 and 15 are the halves of the bit length where the length field is written (R153). -/
theorem fill_length_words (hr : r < 56) : wordAt (fill mem cur r tbits).block 14 = tbits.extractLsb' 32 32 ∧
    wordAt (fill mem cur r tbits).block 15 = tbits.extractLsb' 0 32 := by
  have hbyte : ∀ k, 56 ≤ k → fillByte mem cur r tbits k = lengthByte tbits (k - 56) := fun _ hk => fillByte_length hr hk
  rw [wordAt_eq _ (by decide), wordAt_eq _ (by decide), getElem_fill_block, getElem_fill_block,
    consumedBytes_of_lt (by omega)]
  simp [hbyte, packWord_lengthByte_high, packWord_lengthByte_low]

theorem fill_marker_word (h : tbits.toNat % 512 = 0) : wordAt (fill mem cur 0 tbits).block 0 = 0x80000000 := by
  have hm : markerWritten 0 tbits = true := markerWritten_iff.2 ⟨by decide, .inr h⟩
  have hzero : ∀ k, 0 < k → k < 56 → fillByte mem cur 0 tbits k = 0x00 := fun _ hpos hlt =>
    fillByte_zero (fun _ => hlt) hpos.le fun _ => hpos.ne'
  rw [wordAt_eq _ (by decide), getElem_fill_block, consumedBytes_of_lt (by decide), Nat.mul_zero, fillByte_marker hm,
    hzero _ (by decide) (by decide), hzero _ (by decide) (by decide), hzero _ (by decide) (by decide)]
  rfl

end Block

/-- Settles O17: cases C and D are one, with the marker behind the message bytes that are left. -/
theorem fillHasFiveCases : Obligations.FillHasFiveCases := by
  intro mem cur r tbits
  simp only [fill_consumed]
  refine ⟨fun h => ?_, fun h hr => ?_, fun h hr => ?_, ?_, ?_⟩
  · exact ⟨consumedBytes_of_ge h, fill_bytes_of_full mem cur tbits h⟩
  · exact ⟨consumedBytes_of_lt (by omega), fill_bytes_of_marker_last mem cur tbits h (by omega)⟩
  · exact ⟨consumedBytes_of_lt (by omega),
      fill_bytes_of_marker_and_length mem cur tbits (markerWritten_iff.2 ⟨by omega, .inl h⟩) (by omega),
      fill_length_words mem cur tbits (by omega)⟩
  · rintro rfl h
    exact ⟨rfl, fill_bytes_of_marker_and_length mem cur tbits (markerWritten_iff.2 ⟨by decide, .inr h⟩) (by decide),
      fill_marker_word mem cur tbits h, fill_length_words mem cur tbits (by decide)⟩
  · rintro rfl h
    exact ⟨rfl, fill_bytes_of_length_only mem cur tbits h, fill_length_words mem cur tbits (by decide)⟩

end Sys2Proof.Machine
end

section
/-! The blocks of a whole message (R158). -/

namespace Sys2Proof.Machine

theorem messageBytes_add (mem : Memory) (base m n : Nat) :
    messageBytes mem base (m + n) = messageBytes mem base m ++ messageBytes mem (base + m) n := by
  simp only [messageBytes_eq_map, List.range_add, List.map_append, List.map_map, Function.comp_def, Nat.add_assoc]

theorem length_fillBlocks (mem : Memory) (tbits : DWord) (n cur rem : Nat) :
    (fillBlocks mem tbits n cur rem).length = n := by
  induction n generalizing cur rem with
  | zero => rfl
  | succ n ih => rw [fillBlocks, List.length_cons, ih]

theorem sum_consumed_fillBlocks (mem : Memory) (tbits : DWord) (n cur rem : Nat) :
    ((fillBlocks mem tbits n cur rem).map Filled.consumed).sum = min rem (64 * n) := by
  induction n generalizing cur rem with
  | zero => simp [fillBlocks]
  | succ n ih =>
    rw [fillBlocks, List.map_cons, List.sum_cons, ih, fill_consumed, consumedBytes]
    omega

/-- The bytes of a list of blocks in message order (R158). -/
def blocksToBytes (rs : List Filled) : List Byte := rs.flatMap fun r => wordsToBytes r.block.toList

theorem blocksToBytes_fillBlocks_succ (mem : Memory) (tbits : DWord) (n cur rem : Nat) :
    blocksToBytes (fillBlocks mem tbits (n + 1) cur rem) = wordsToBytes (fill mem cur rem tbits).block.toList ++
      blocksToBytes (fillBlocks mem tbits n (cur + consumedBytes rem) (rem - consumedBytes rem)) := by
  simp only [blocksToBytes, fillBlocks, List.flatMap_cons, fill_consumed]

theorem blocksToBytes_fillBlocks_one (mem : Memory) (tbits : DWord) (cur rem : Nat) :
    blocksToBytes (fillBlocks mem tbits 1 cur rem) = wordsToBytes (fill mem cur rem tbits).block.toList := by
  rw [blocksToBytes_fillBlocks_succ, fillBlocks]
  exact List.append_nil _

/-- `bytes` is the padding of `msg`: the marker, the fewest zeros, and the length field (R158). -/
def IsPaddingOf (msg : List Byte) (tbits : DWord) (bytes : List Byte) : Prop :=
  ∃ z, z < 64 ∧ (msg.length + 1 + z) % 64 = 56 ∧ bytes = msg ++ 0x80 :: List.replicate z 0x00 ++ lengthField tbits

/-- A whole block of message bytes before the message moves no padding. -/
theorem IsPaddingOf.prepend {msg bytes pre : List Byte} {tbits : DWord} (h : IsPaddingOf msg tbits bytes)
    (hpre : pre.length = 64) : IsPaddingOf (pre ++ msg) tbits (pre ++ bytes) := by
  obtain ⟨z, hz, hmod, rfl⟩ := h
  exact ⟨z, hz, by rw [List.length_append, hpre]; omega, by simp only [List.append_assoc]⟩

/-- The blocks that end a message pad what is left of it, by the cases of R154. A bit length that is what is left, up to
whole blocks, tells case D from case E. -/
theorem fillBlocks_isPadding (mem : Memory) {tbits : DWord} {n cur rem : Nat} (hn : n = nBlocks rem)
    (ht : tbits.toNat % 512 = 8 * rem % 512) :
    IsPaddingOf (messageBytes mem cur rem) tbits (blocksToBytes (fillBlocks mem tbits n cur rem)) := by
  induction n generalizing cur rem with
  | zero => rw [nBlocks] at hn; omega
  | succ n ih =>
    rw [nBlocks] at hn
    obtain hfull | ⟨hlong, hlt⟩ | hshort : 64 ≤ rem ∨ (56 ≤ rem ∧ rem < 64) ∨ rem < 56 := by omega
    · -- a block of message bytes, then the blocks of the rest
      obtain ⟨rest, rfl⟩ := Nat.exists_eq_add_of_le hfull
      have hrest : IsPaddingOf _ tbits (blocksToBytes (fillBlocks mem tbits n (cur + 64) rest)) :=
        ih (by rw [nBlocks]; omega) (by omega)
      rw [blocksToBytes_fillBlocks_succ, fill_bytes_of_full mem cur tbits hfull, consumedBytes_of_ge hfull,
        Nat.add_sub_cancel_left, messageBytes_add]
      exact hrest.prepend (length_messageBytes mem cur 64)
    · -- the marker in one block, the length field alone in the next
      obtain rfl : n = 1 := by omega
      rw [blocksToBytes_fillBlocks_succ, blocksToBytes_fillBlocks_one, consumedBytes_of_lt hlt, Nat.sub_self,
        fill_bytes_of_marker_last mem cur tbits hlong hlt, fill_bytes_of_length_only _ _ _ (by omega)]
      refine ⟨63 - rem + 56, by omega, by rw [length_messageBytes]; omega, ?_⟩
      rw [List.replicate_add]
      simp only [List.append_assoc, List.cons_append]
    · -- the marker and the length field in one block
      obtain rfl : n = 0 := by omega
      have hm : markerWritten rem tbits = true := markerWritten_iff.2 (by omega)
      rw [blocksToBytes_fillBlocks_one, fill_bytes_of_marker_and_length mem cur tbits hm hshort]
      exact ⟨55 - rem, by omega, by rw [length_messageBytes]; omega, rfl⟩

/-- Settles O19: the blocks pad the message, and `NBlocks` blocks hold all its bytes. -/
theorem blocksArePaddedMessage : Obligations.BlocksArePaddedMessage := by
  intro mem base len hlen
  refine ⟨length_fillBlocks .., ?_, ?_⟩
  · rw [messageBlocks, sum_consumed_fillBlocks, nBlocks]
    omega
  · have ht : (BitVec.ofNat 64 (8 * len)).toNat = 8 * len := by
      rw [BitVec.toNat_ofNat]; omega
    have hpad := fillBlocks_isPadding mem (cur := base) rfl (congrArg (· % 512) ht)
    rwa [IsPaddingOf, length_messageBytes] at hpad

end Sys2Proof.Machine
end

section
/-! The command FILL (R156). -/

namespace Sys2Proof.Machine

/-! ### The advance of the context -/

section Advance

variable (x : Ctx) (past : DWord) {c : Nat}

theorem Ctx.advance_cur_toNat (h : x.cur.toNat + c < 2 ^ 64) : (x.advance c past).cur.toNat = x.cur.toNat + c := by
  rw [Ctx.advance, if_pos h, BitVec.toNat_add, BitVec.toNat_ofNat]
  omega

theorem Ctx.advance_rem_toNat (h : c ≤ x.rem.toNat) : (x.advance c past).rem.toNat = x.rem.toNat - c := by
  have hc : (BitVec.ofNat 64 c).toNat = c :=
    (BitVec.toNat_ofNat ..).trans (Nat.mod_eq_of_lt (h.trans_lt x.rem.isLt))
  rw [Ctx.advance, BitVec.toNat_sub_of_le (by rwa [BitVec.le_def, hc]), hc]

theorem Ctx.advance_lastc_toNat (h : c ≤ 64) : (x.advance c past).lastc.toNat = c :=
  (BitVec.toNat_ofNat ..).trans (Nat.mod_eq_of_lt (by omega))

end Advance

/-! ### What FILL answers -/

theorem exec_fill_of_inside {s : State} {x : Ctx} (hx : s.ctx = some x) (hne : x.bcnt ≠ x.nblk)
    (hin : x.rem = 0 ∨ x.cur.toNat + consumedBytes x.rem.toNat ≤ s.memBytes) :
    exec .fill s = .next (s.materialise x) := by
  have ho : readsOutside x s = false := by
    rw [Bool.eq_false_iff, ne_eq, readsOutside_iff]
    rintro ⟨hpos, hout⟩
    rcases hin with hrem | hin
    · rw [hrem] at hpos
      exact absurd hpos (by decide)
    · omega
  exact (Completes.fill hx hne ho).exec_eq

theorem exec_fill_of_no_ctx {s : State} (h : s.ctx = none) : exec .fill s = .next (s.raise .uninitRead 0x020) := by
  simpa [h] using execFill_cases s

theorem exec_fill_of_overrun {s : State} {x : Ctx} (hx : s.ctx = some x) (h : x.bcnt = x.nblk) :
    exec .fill s = .next (s.raise .overrun 0x00000003) := by
  simpa [hx, h] using execFill_cases s

/-- Settles O20: FILL writes the block and the advanced context alone, and its checks raise in their order. -/
theorem fillMaterialisesBlock : Obligations.FillMaterialisesBlock := by
  refine ⟨rfl, fun s x hx hne hin => ?_, fun s hf => ⟨fun hnone => ?_, fun x hx hb => ?_⟩⟩
  · exact ⟨_, _, exec_fill_of_inside hx hne hin, s.materialise_ctx x, eq_written_iff.1 (s.materialise_m x),
      x.advance_cur_toNat _, x.advance_rem_toNat _ (consumedBytes_le_rem _), x.advance_lastc_toNat _ (consumedBytes_le _),
      rfl, rfl, rfl, rfl, rfl, rfl, rfl, ⟨rfl, rfl, rfl, rfl⟩, rfl, ⟨rfl, rfl, rfl⟩, ⟨fun _ => rfl, rfl, rfl, rfl⟩⟩
  · exact ⟨_, exec_fill_of_no_ctx hnone, recordsFault_raise hf _ _⟩
  · exact ⟨_, exec_fill_of_overrun hx hb, recordsFault_raise hf _ _⟩

end Sys2Proof.Machine
end

section
/-! The commands INIT (R171), LOAD (R172) and CMP (R176), and the faults of `LoadCtx`, which LOAD and DIGEST share. -/

namespace Sys2Proof.Machine

/-! ### INIT -/

/-- Settles O22: INIT writes `H` and `PHASE` alone, and with fixed values. -/
theorem initBeginsDigest : Obligations.InitBeginsDigest := by
  refine ⟨rfl, fun s => ⟨s.startHash, rfl, eq_written_iff.1 rfl, rfl, rfl, rfl, rfl, rfl, ⟨rfl, rfl, rfl, rfl⟩, rfl,
    ⟨rfl, rfl, rfl⟩, ⟨fun _ => rfl, rfl, rfl, rfl⟩, rfl, rfl, ?_⟩⟩
  rintro rfl
  decide

/-! ### LoadCtx -/

section LoadCtx

variable {s : State} {base len : DWord} {cw : Word}

theorem describes.descriptor_eq (h : describes s base len) : s.descriptor = .ok (base, len) := by
  obtain ⟨hbl, hbh, hll, hlh⟩ := h
  simp only [State.descriptor, hbl, hbh, hll, hlh, joinWords_halves]

theorem loadable.loadCtx_eq (h : loadable s base len) (cw : Word) : loadCtx cw s = .ok (Ctx.start base len) := by
  obtain ⟨hdesc, hlen, hmem⟩ := h
  exact loadCtx_ok.2 ⟨base, len, hdesc.descriptor_eq, hlen, hmem, rfl⟩

theorem loadable.len_le (h : loadable s base len) : len.toNat ≤ maxLen := by
  obtain ⟨-, hlen, -⟩ := h
  exact hlen

theorem loadCtx_of_bot {off : Word} (h : s.descriptor = .error off) : loadCtx cw s = .error (.uninitRead, off) := by
  simp only [loadCtx, h]

theorem loadCtx_of_long (h : describes s base len) (hlen : maxLen < len.toNat) :
    loadCtx cw s = .error (.length, cw) := by
  simp only [loadCtx, h.descriptor_eq, if_pos hlen]

theorem loadCtx_of_outside (h : describes s base len) (hlen : len.toNat ≤ maxLen)
    (hmem : s.memBytes < base.toNat + len.toNat) : loadCtx cw s = .error (.range, cw) := by
  simp only [loadCtx, h.descriptor_eq, if_neg hlen.not_gt, if_pos hmem]

/-- A command that raises what `LoadCtx` raises has the faults of R172, in the order of its checks. -/
theorem loadCtxFaults_of_raises {i : Instr} (hf : s.fault = false)
    (hi : ∀ cause info, loadCtx (encode i) s = .error (cause, info) → exec i s = .next (s.raise cause info)) :
    loadCtxFaults i s := by
  have hraise : ∀ {cause info}, loadCtx (encode i) s = .error (cause, info) →
      ∃ t, exec i s = .next t ∧ recordsFault s cause info t := fun he =>
    ⟨_, hi _ _ he, recordsFault_raise hf _ _⟩
  refine ⟨fun hbl => ?_, fun hbl hbh => ?_, fun hbl hbh hll => ?_, fun hbl hbh hll hlh => ?_,
    fun base len hdesc hlen => hraise (loadCtx_of_long hdesc hlen),
    fun base len hdesc hlen hmem => hraise (loadCtx_of_outside hdesc hlen hmem)⟩ <;>
    refine hraise (loadCtx_of_bot ?_)
  · simp only [State.descriptor, hbl]
  · obtain ⟨v, hv⟩ := Option.ne_none_iff_exists'.1 hbl
    simp only [State.descriptor, hv, hbh]
  · obtain ⟨v, hv⟩ := Option.ne_none_iff_exists'.1 hbl
    obtain ⟨w, hw⟩ := Option.ne_none_iff_exists'.1 hbh
    simp only [State.descriptor, hv, hw, hll]
  · obtain ⟨v, hv⟩ := Option.ne_none_iff_exists'.1 hbl
    obtain ⟨w, hw⟩ := Option.ne_none_iff_exists'.1 hbh
    obtain ⟨u, hu⟩ := Option.ne_none_iff_exists'.1 hll
    simp only [State.descriptor, hv, hw, hu, hlh]

end LoadCtx

/-! ### LOAD -/

theorem exec_load_of_error {s : State} {cause : Cause} {info : Word}
    (h : loadCtx 0x00000002 s = .error (cause, info)) : exec .load s = .next (s.raise cause info) := by
  simp only [exec, execLoad, h]

/-- No block is materialised yet and every message has one (R157), so `LAST` is clear (R29). -/
theorem Ctx.start_bcnt_ne_nblk {base len : DWord} (h : len.toNat ≤ maxLen) :
    (Ctx.start base len).bcnt ≠ (Ctx.start base len).nblk := by
  intro heq
  have hn := Ctx.start_nblk (base := base) h
  have hzero : (Ctx.start base len).bcnt.toNat = 0 := rfl
  rw [← heq, hzero, nBlocks] at hn
  omega

/-- Settles O23: LOAD writes the context of `LoadCtx` alone. -/
theorem loadSetsContext : Obligations.LoadSetsContext := by
  refine ⟨rfl, fun s base len h => ?_, fun s hf => loadCtxFaults_of_raises hf fun _ _ => exec_load_of_error⟩
  exact ⟨s.setCtx (Ctx.start base len), _, (Completes.load (h.loadCtx_eq _)).exec_eq, rfl, rfl, rfl,
    Ctx.start_tbits h.len_le, Ctx.start_nblk h.len_le, rfl, rfl, rfl, beq_false_of_ne (Ctx.start_bcnt_ne_nblk h.len_le),
    rfl, rfl, rfl, rfl, rfl, ⟨rfl, rfl, rfl, rfl⟩, rfl, ⟨rfl, rfl, rfl⟩, ⟨fun _ => rfl, rfl, rfl, rfl⟩, rfl⟩

/-! ### CMP -/

theorem exec_cmp_of_words {s : State} {hs cv : Vector Word 8} (hp : s.phase ≠ .uninit) (hh : s.h = written hs)
    (hcv : s.cv = written cv) : exec .cmp s = .next (s.setEq (hashesEqual hs cv)) := by
  have hc : Completes s .cmp (s.setEq (hashesEqual (words s.h) (words s.cv))) :=
    .cmp hp (by rw [hcv, lowestBot_written]) (by rw [hh, lowestBot_written])
  rw [hc.exec_eq, hh, hcv, words_written, words_written]

theorem exec_cmp_of_uninit {s : State} (h : s.phase = .uninit) :
    exec .cmp s = .next (s.raise .uninitRead 0x080) := by
  simpa [h] using execCmp_cases s

theorem exec_cmp_of_bot {s : State} {j : Nat} (hp : s.phase ≠ .uninit) (h : lowestBot s.cv = some j) :
    exec .cmp s = .next (s.raise .uninitRead (elementOffset 0x0A0 j)) := by
  have hbot : s.compareCv = s.raise .uninitRead (elementOffset 0x0A0 j) := by
    simpa [h] using s.compareCv_cases
  rw [exec_cmp_of_open hp, hbot]

/-- Settles O28: CMP looks at `PHASE`, then at the compare value, and writes `EQ` alone. -/
theorem cmpComparesHash : Obligations.CmpComparesHash := by
  refine ⟨rfl, fun s hs cv hp hh hcv => ?_, fun s hf => ⟨fun hu => ?_, fun j hp hj => ?_⟩⟩
  · have heq : hashesEqual hs cv = true ↔ hs = cv := hashesEqual_iff hs cv
    refine ⟨_, exec_cmp_of_words hp (eq_written_iff.2 hh) (eq_written_iff.2 hcv), ?_, heq.trans digestBytes_inj.symm,
      rfl, rfl, rfl, rfl, rfl, rfl, ⟨rfl, rfl, rfl, rfl⟩, ⟨rfl, rfl, rfl⟩, ⟨fun _ => rfl, rfl, rfl, rfl⟩, rfl⟩
    exact heq.trans ⟨fun h _ => by rw [h], fun h => Vector.ext fun j hj => h ⟨j, hj⟩⟩
  · exact ⟨_, exec_cmp_of_uninit hu, recordsFault_raise hf _ _⟩
  · rw [← elementOffset_ofNat]
    exact ⟨_, exec_cmp_of_bot hp (lowestUnwritten_iff.1 hj), recordsFault_raise hf _ _⟩

end Sys2Proof.Machine
end

section
/-! Every change of `PHASE` (R170). -/

namespace Sys2Proof.Machine

theorem raisesFrom.phase_eq {s t : State} (h : raisesFrom s t) : t.phase = s.phase := by
  obtain ⟨cause, info, -, rfl⟩ := h
  exact s.raise_phase cause info

theorem hostRead_phase (off : BitVec 12) (s : State) : (hostRead off s).1.phase = s.phase := by
  rcases hostRead_fst off s with he | hr
  · rw [he]
  · exact hr.phase_eq

/-- A host write that issues no command leaves `PHASE` (R63, R170). -/
theorem hostWrite_phase {off : BitVec 12} {v : Word} {s t : State}
    (hno : regAt off = some .cmd → ∀ i, decode v ≠ .ok i) (h : hostWrite off v s = .next t) : t.phase = s.phase := by
  rcases hostWrite_cases off v s with ⟨-, he⟩ | ⟨-, he⟩ | ⟨-, hcmd, he⟩ | ⟨-, r, u, -, hu, he⟩ <;> rw [he] at h
  · cases h; rfl
  · cases h; exact s.raise_phase _ _
  · rcases issueCommand_cases v s with ⟨i, hi, -⟩ | ⟨e, -, hi⟩
    · exact absurd hi (hno hcmd i)
    · cases hi.symm.trans h; exact s.raise_phase _ _
  · cases h; rw [Reg.store_frame hu]

/-- Settles O34: a command that completes writes the `PHASE` of its row, and no fault entry or other access does. -/
theorem phaseChangesByTable : Obligations.PhaseChangesByTable := by
  refine ⟨fun i s t hf h => ?_, fun s hf hp => ?_, fun s hf hp => ?_, fun s t off h => ?_, fun s t off v hoff h => ?_,
    fun s t v hno h => hostWrite_phase (off := 0x000) (fun _ => hno) h, fun _ => rfl⟩
  · rcases exec_next h with hc | hr
    · refine ⟨fun hft => absurd hft (by simp [hc.fault_eq_false hf]), fun _ => ?_⟩
      cases hc <;> rfl
    · exact ⟨fun _ => hr.phase_eq, fun hft => absurd hr.fault_eq (by simp [hft])⟩
  · exact ⟨_, exec_compress_of_uninit hp, (s.raise_phase _ _).trans hp, by rw [State.raise_of_clear _ _ _ hf]⟩
  · exact ⟨_, exec_compress_of_final hp, (s.raise_phase _ _).trans hp, by rw [State.raise_of_clear _ _ _ hf]⟩
  · cases h; exact hostRead_phase off s
  · exact hostWrite_phase (fun hcmd => absurd (offset_of_regAt hcmd).symm hoff) h

end Sys2Proof.Machine
end

section
/-! The digest depends on the bytes of the message alone (R173): so does each block, wherever the bytes stand. -/

namespace Sys2Proof.Machine

section MessageBytes

variable {mem mem' : Memory} {cur cur' c rem : Nat} {tbits : DWord}

/-- A byte of a block depends on the message bytes consumed, and not on their address (R151). -/
theorem fillByte_congr (h : ∀ k, k < c → mem.read (cur + k) = mem'.read (cur' + k)) :
    fillByte mem cur c tbits = fillByte mem' cur' c tbits := by
  funext k
  have hmsg : (if k < c then mem.read (cur + k) else 0x00) = if k < c then mem'.read (cur' + k) else 0x00 :=
    if_ctx_congr Iff.rfl (h k) fun _ => rfl
  simp only [fillByte, hmsg]

theorem fill_congr_of_bytes (h : ∀ k, k < consumedBytes rem → mem.read (cur + k) = mem'.read (cur' + k)) :
    fill mem cur rem tbits = fill mem' cur' rem tbits := by
  rw [fill, fill, fillByte_congr h]

theorem fillBlocks_congr {n : Nat} (h : ∀ k, k < rem → mem.read (cur + k) = mem'.read (cur' + k)) :
    fillBlocks mem tbits n cur rem = fillBlocks mem' tbits n cur' rem := by
  induction n generalizing cur cur' rem with
  | zero => rfl
  | succ n ih =>
    have hle := consumedBytes_le_rem rem
    have hfirst : fill mem cur rem tbits = fill mem' cur' rem tbits :=
      fill_congr_of_bytes fun k hk => h k (by omega)
    have hrest : fillBlocks mem tbits n (cur + consumedBytes rem) (rem - consumedBytes rem) =
        fillBlocks mem' tbits n (cur' + consumedBytes rem) (rem - consumedBytes rem) := ih fun k hk => by
      rw [Nat.add_assoc, Nat.add_assoc]
      exact h _ (by omega)
    simp only [fillBlocks, fill_consumed, hfirst, hrest]

end MessageBytes

/-- Settles O26: the blocks of the message are the same, and the digest folds them. -/
theorem digestDependsOnMessageOnly : Obligations.DigestDependsOnMessageOnly := by
  intro mem mem' base base' len h
  simp only [digestOf, messageBlocks, fillBlocks_congr h]

end Sys2Proof.Machine
end

section
/-! The block loop of DIGEST (R174), as long as it has blocks to do: each turn takes the next of the blocks that the
pure functions of R158 list and folds it into the hash state. -/

namespace Sys2Proof.Machine

/-! ### The blocks that a context still has to give -/

/-- The next block of a context (R156). -/
def Ctx.filled (x : Ctx) (mem : Memory) : Filled := fill mem x.cur.toNat x.rem.toNat x.tbits

/-- The next `n` blocks of a context (R158). -/
def Ctx.blocks (x : Ctx) (mem : Memory) (n : Nat) : List Filled := fillBlocks mem x.tbits n x.cur.toNat x.rem.toNat

/-- The context that FILL leaves (R156). -/
def Ctx.filledOnce (x : Ctx) (freeCount : Nat) : Ctx :=
  x.advance (consumedBytes x.rem.toNat) (Config.curPastTop freeCount)

/-- A hash state after blocks are folded into it (R173). -/
def foldBlocks (hs : Vector Word 8) (rs : List Filled) : Vector Word 8 :=
  rs.foldl (fun hs r => (compress hs r.block).hash) hs

theorem digestOf_eq_foldBlocks (mem : Memory) (base len : Nat) :
    digestOf mem base len = foldBlocks IV (messageBlocks mem base len) := rfl

theorem Ctx.start_blocks {base len : DWord} (h : len.toNat ≤ maxLen) (mem : Memory) :
    (Ctx.start base len).blocks mem (Ctx.start base len).nblk.toNat = messageBlocks mem base.toNat len.toNat := by
  rw [Ctx.blocks, Ctx.start_nblk h]
  rfl

/-- While bytes are left behind the block, `CUR` has not reached the end of the memory, and 64 bits hold it. -/
theorem Ctx.Agrees.cur_lt {x : Ctx} {memBytes : Nat} (h : x.Agrees memBytes) (hmem : memBytes ≤ 2 ^ 64)
    (hleft : consumedBytes x.rem.toNat < x.rem.toNat) : x.cur.toNat + consumedBytes x.rem.toNat < 2 ^ 64 := by
  have hin := h.inside
  omega

/-- The blocks go on from the context that FILL leaves: a free `CUR` stands only where no byte is left. -/
theorem Ctx.Agrees.blocks_succ {x : Ctx} {memBytes : Nat} (h : x.Agrees memBytes) (hmem : memBytes ≤ 2 ^ 64)
    (mem : Memory) (n freeCount : Nat) :
    x.blocks mem (n + 1) = x.filled mem :: (x.filledOnce freeCount).blocks mem n := by
  have hrem : (x.filledOnce freeCount).rem.toNat = x.rem.toNat - consumedBytes x.rem.toNat :=
    x.advance_rem_toNat _ (consumedBytes_le_rem _)
  rw [Ctx.blocks, fillBlocks, fill_consumed, Ctx.blocks, hrem]
  refine congrArg (x.filled mem :: ·) (fillBlocks_congr fun k hk => ?_)
  have hcur : (x.filledOnce freeCount).cur.toNat = x.cur.toNat + consumedBytes x.rem.toNat :=
    x.advance_cur_toNat _ (h.cur_lt hmem (by omega))
  rw [hcur]

/-! ### The turns of the loop -/

/-- The loop has `n` turns to do, from the context `x` and the hash state `hs`. -/
structure TurnsLeft (n : Nat) (x : Ctx) (hs : Vector Word 8) (s : State) : Prop where
  ctx_eq : s.ctx = some x
  h_eq : s.h = written hs
  agrees : x.Agrees s.memBytes
  left : x.bcnt.toNat + n = x.nblk.toNat

/-- The block and the schedule that a turn leaves (R174). -/
def holdsBlock (r : Filled) (s : State) : Prop := s.m = written r.block ∧ s.w = written (schedule r.block)

/-- DIGEST starts with all its turns to do (R172, R174). -/
theorem TurnsLeft.start {cw : Word} {s : State} {x : Ctx} (hx : loadCtx cw s = .ok x) :
    TurnsLeft x.nblk.toNat x IV (s.startHash.setCtx x) where
  ctx_eq := rfl
  h_eq := rfl
  agrees := loadCtx_agrees hx
  left := by
    obtain ⟨base, len, -, -, -, rfl⟩ := loadCtx_ok.1 hx
    exact Nat.zero_add _

section Turns

variable {n : Nat} {x : Ctx} {hs : Vector Word 8} {s : State}

theorem TurnsLeft.bcnt_ne_nblk (h : TurnsLeft (n + 1) x hs s) : x.bcnt ≠ x.nblk := by
  intro heq
  have hleft := h.left
  rw [heq] at hleft
  omega

theorem TurnsLeft.digestBlock_eq (h : TurnsLeft n x hs s) :
    s.digestBlock = (s.materialise x).foldBlock hs (x.filled s.mem).block := by
  rw [State.digestBlock_of_ctx h.ctx_eq, h.h_eq, words_written, Ctx.filled]

theorem TurnsLeft.digestBlock (h : TurnsLeft (n + 1) x hs s) :
    TurnsLeft n (x.filledOnce s.freeCount) (compress hs (x.filled s.mem).block).hash s.digestBlock := by
  rw [h.digestBlock_eq]
  have hsucc : (x.filledOnce s.freeCount).bcnt.toNat = x.bcnt.toNat + 1 := h.agrees.bcnt_succ
  have hleft := h.left
  exact {
    ctx_eq := s.materialise_ctx x
    h_eq := rfl
    agrees := h.agrees.advance s.memBytes_le h.bcnt_ne_nblk _
    left := by rw [hsucc, Nat.add_assoc, Nat.add_comm 1, hleft]; rfl }

theorem TurnsLeft.digestBlock_mem (h : TurnsLeft n x hs s) : s.digestBlock.mem = s.mem := by
  rw [h.digestBlock_eq]; rfl

theorem TurnsLeft.holdsBlock_digestBlock (h : TurnsLeft n x hs s) : holdsBlock (x.filled s.mem) s.digestBlock := by
  rw [h.digestBlock_eq]
  exact ⟨rfl, congrArg written (compress_sched _ _)⟩

theorem TurnsLeft.blocks_succ (h : TurnsLeft (n + 1) x hs s) : x.blocks s.mem (n + 1) =
    x.filled s.mem :: (x.filledOnce s.freeCount).blocks s.digestBlock.mem n := by
  rw [h.agrees.blocks_succ s.memBytes_le, h.digestBlock_mem]

/-- After its turns the loop has folded the blocks that were left, and the context has moved past them. -/
theorem TurnsLeft.digestBlocks (h : TurnsLeft n x hs s) :
    ∃ y, TurnsLeft 0 y (foldBlocks hs (x.blocks s.mem n)) (State.digestBlocks n s) ∧ y.tbits = x.tbits
      ∧ (x.cur.toNat + x.rem.toNat < 2 ^ 64 → y.cur.toNat + y.rem.toNat = x.cur.toNat + x.rem.toNat) := by
  induction n generalizing x hs s with
  | zero => exact ⟨x, h, rfl, fun _ => rfl⟩
  | succ n ih =>
    obtain ⟨y, hy, ht, hcur⟩ := ih h.digestBlock
    rw [h.blocks_succ]
    refine ⟨y, hy, ht, fun hlt => ?_⟩
    have hle := consumedBytes_le_rem x.rem.toNat
    have hc : (x.filledOnce s.freeCount).cur.toNat = x.cur.toNat + consumedBytes x.rem.toNat :=
      x.advance_cur_toNat _ (by omega)
    have hr : (x.filledOnce s.freeCount).rem.toNat = x.rem.toNat - consumedBytes x.rem.toNat :=
      x.advance_rem_toNat _ hle
    rw [hcur (by omega)]
    omega

/-- The block and the schedule after the turns are those of the last block. -/
theorem TurnsLeft.holdsBlock_digestBlocks (h : TurnsLeft n x hs s) {r : Filled} (hr : holdsBlock r s) :
    holdsBlock ((x.blocks s.mem n).getLast?.getD r) (State.digestBlocks n s) := by
  induction n generalizing x hs s r with
  | zero => exact hr
  | succ n ih =>
    rw [h.blocks_succ, List.getLast?_cons]
    exact ih h.digestBlock h.holdsBlock_digestBlock

theorem TurnsLeft.getLast_block (h : TurnsLeft (n + 1) x hs s) :
    ∃ r, (x.blocks s.mem (n + 1)).getLast? = some r ∧ holdsBlock r (State.digestBlocks (n + 1) s) := by
  rw [h.blocks_succ, List.getLast?_cons]
  exact ⟨_, rfl, h.digestBlock.holdsBlock_digestBlocks h.holdsBlock_digestBlock⟩

/-- Every turn leaves `PHASE` as COMPRESS does (R170, R174). -/
theorem TurnsLeft.digestBlock_phase (h : TurnsLeft n x hs s) : s.digestBlock.phase = .updated := by
  rw [h.digestBlock_eq]; rfl

theorem TurnsLeft.digestBlocks_phase (h : TurnsLeft (n + 1) x hs s) :
    (State.digestBlocks (n + 1) s).phase = .updated := by
  induction n generalizing x hs s with
  | zero => exact h.digestBlock_phase
  | succ n ih => exact ih h.digestBlock

end Turns

/-! ### The context of a finished message -/

section Finished

variable {x : Ctx} {memBytes len : Nat} (h : x.Agrees memBytes) (hn : x.bcnt.toNat = x.nblk.toNat)
  (ht : x.tbits.toNat = 8 * len)
include h hn ht

theorem Ctx.Agrees.rem_of_finished : x.rem = 0 := by
  have hrem := h.rem_eq
  rw [hn, h.nblk_eq, ht, nBlocks] at hrem
  exact BitVec.eq_of_toNat_eq (by rw [hrem]; simp; omega)

/-- The last block holds the message bytes behind the whole blocks, or none where the length field needs a block of its
own (R154, R174). -/
theorem Ctx.Agrees.lastc_of_finished :
    x.lastc.toNat = if 1 ≤ len % 64 ∧ len % 64 ≤ 55 then len % 64 else 0 := by
  have hlast := h.lastc_eq
  rw [hn, h.nblk_eq, ht, nBlocks] at hlast
  rw [hlast]
  split_ifs <;> omega

end Finished

end Sys2Proof.Machine
end

section
/-! The command DIGEST (R174), a second one (R173), and the host-driven block loop (R175). -/

namespace Sys2Proof.Machine

/-! ### DIGEST -/

theorem exec_digest_of_error {s : State} {cause : Cause} {info : Word}
    (h : loadCtx 0x00000006 s = .error (cause, info)) : exec .digest s = .next (s.raise cause info) := by
  simp only [exec, execDigest, h]

/-- DIGEST with a context does all its turns: it has folded the blocks of the message into `IV`, the context has moved
past them, and `M` and `W` hold the last of them (R173, R174). -/
theorem digestMessage_end {cw : Word} {s : State} {x : Ctx} (hx : loadCtx cw s = .ok x) :
    (∃ y, TurnsLeft 0 y (foldBlocks IV (x.blocks s.mem x.nblk.toNat)) (s.digestMessage x) ∧ y.tbits = x.tbits
      ∧ (x.cur.toNat + x.rem.toNat < 2 ^ 64 → y.cur.toNat + y.rem.toNat = x.cur.toNat + x.rem.toNat))
    ∧ ∃ r, (x.blocks s.mem x.nblk.toNat).getLast? = some r ∧ holdsBlock r (s.digestMessage x) := by
  have hstart := TurnsLeft.start hx
  obtain ⟨y, hy, hctx⟩ := hstart.digestBlocks
  refine ⟨⟨y, { hy with }, hctx⟩, ?_⟩
  obtain ⟨n, hn⟩ := Nat.exists_eq_succ_of_ne_zero (loadCtx_nblk_pos hx).ne'
  rw [hn] at hstart
  rw [State.digestMessage, hn]
  exact hstart.getLast_block

/-- Settles O24: the blocks of the starting context are those of the message, and the context after them is finished. -/
theorem digestComputesDigest : Obligations.DigestComputesDigest := by
  refine ⟨rfl, fun s base len h => ?_, fun s hf => loadCtxFaults_of_raises hf fun _ _ => exec_digest_of_error⟩
  have hc : Completes s .digest (s.digestMessage (Ctx.start base len)) := .digest (h.loadCtx_eq _)
  obtain ⟨hrec, hcv, hdesc, hout⟩ := hc.keeps
  obtain ⟨⟨y, hy, htbits, hcur⟩, r, hlast, hm, hw⟩ := digestMessage_end (h.loadCtx_eq 0x00000006)
  rw [Ctx.start_blocks h.len_le] at hy hlast
  rw [← digestOf_eq_foldBlocks] at hy
  have hfin : y.bcnt.toNat = y.nblk.toNat := hy.left
  have ht : y.tbits.toNat = 8 * len.toNat := by rw [htbits, Ctx.start_tbits h.len_le]
  have hrem : y.rem = 0 := hy.agrees.rem_of_finished hfin ht
  have hnblk : y.nblk.toNat = nBlocks len.toNat := by
    rw [hy.agrees.nblk_eq, ht, Nat.mul_div_cancel_left _ (by decide)]
  have hbcnt : y.bcnt = y.nblk := BitVec.eq_of_toNat_eq hfin
  refine ⟨_, y, r, hc.exec_eq, eq_written_iff.1 hy.h_eq, rfl, hy.ctx_eq, fun hlt => ?_, hrem, ht, hnblk, hbcnt,
    (State.last_iff _).2 ⟨y, hy.ctx_eq, hbcnt⟩, hy.agrees.lastc_of_finished hfin ht, hlast, eq_written_iff.1 hm,
    eq_written_iff.1 hw, hcv, hdesc, hc.eqFlag_eq (by decide), hrec, hout⟩
  have hsum := hcur hlt
  rwa [hrem] at hsum

/-- Settles O27: DIGEST leaves the descriptor and the memory, from which the second one makes the same blocks. -/
theorem digestAgainGivesSameHash : Obligations.DigestAgainGivesSameHash := by
  intro s t h hf
  have hc := completes_of_exec h hf
  obtain ⟨-, -, hdesc, -, hlast, -⟩ := hc.keeps
  have hmem := hc.mem_eq
  cases hc with
  | digest hx =>
    have hx' := (loadCtx_congr hdesc hlast).trans hx
    have hagain := Completes.digest hx'
    obtain ⟨hrec, -⟩ := hagain.keeps
    obtain ⟨⟨y, hy, -⟩, r, hr, hm, hw⟩ := digestMessage_end hx
    obtain ⟨⟨y', hy', -⟩, r', hr', hm', hw'⟩ := digestMessage_end hx'
    rw [hmem] at hy' hr'
    cases hr.symm.trans hr'
    exact ⟨_, hagain.exec_eq, hy'.h_eq.trans hy.h_eq.symm, hm'.trans hm.symm, hw'.trans hw.symm, rfl, hrec⟩

/-! ### The host-driven block loop -/

theorem execAll_cons {i : Instr} {s t : State} (h : exec i s = .next t) (is : List Instr) :
    execAll (i :: is) s = execAll is t := by
  rw [execAll, h]

section HostLoop

variable {n : Nat} {x : Ctx} {hs : Vector Word 8} {s : State}

/-- FILL and then COMPRESS are one turn of the loop of DIGEST (R174, R175). -/
theorem TurnsLeft.execAll_fill_compress (h : TurnsLeft (n + 1) x hs s)
    (hp : s.phase = .initialized ∨ s.phase = .updated) (is : List Instr) :
    execAll (.fill :: .compress :: is) s = execAll is s.digestBlock := by
  have hfill : Completes s .fill (s.materialise x) :=
    .fill h.ctx_eq h.bcnt_ne_nblk h.agrees.readsOutside_eq_false
  have hcompress : exec .compress (s.materialise x) = .next s.digestBlock := by
    rw [h.digestBlock_eq]
    exact exec_compress_of_words hp h.h_eq (s.materialise_m x)
  rw [execAll_cons hfill.exec_eq, execAll_cons hcompress]

theorem TurnsLeft.execAll_turns (h : TurnsLeft n x hs s) (hp : s.phase = .initialized ∨ s.phase = .updated) :
    execAll (List.replicate n [Instr.fill, Instr.compress]).flatten s = .next (State.digestBlocks n s) := by
  induction n generalizing x hs s with
  | zero => rfl
  | succ n ih =>
    calc execAll (List.replicate (n + 1) [Instr.fill, Instr.compress]).flatten s
        = execAll (List.replicate n [Instr.fill, Instr.compress]).flatten s.digestBlock :=
          h.execAll_fill_compress hp _
      _ = .next (State.digestBlocks (n + 1) s) := ih h.digestBlock (.inr h.digestBlock_phase)

end HostLoop

/-- Settles O25: INIT and LOAD start the loop of DIGEST, and each FILL and COMPRESS is one turn of it. -/
theorem hostLoopEqualsDigest : Obligations.HostLoopEqualsDigest := by
  intro s base len _ h
  have hx : loadCtx 0x00000002 s.startHash = .ok (Ctx.start base len) := h.loadCtx_eq _
  have hturns := TurnsLeft.start (h.loadCtx_eq 0x00000002)
  obtain ⟨n, hn⟩ := Nat.exists_eq_succ_of_ne_zero (loadCtx_nblk_pos hx).ne'
  have hphase : (State.digestBlocks (n + 1) (s.startHash.setCtx (Ctx.start base len))).phase = .updated := by
    rw [hn] at hturns
    exact hturns.digestBlocks_phase
  have hloop : execAll (hostLoop (nBlocks len.toNat)) s =
      .next (State.digestBlocks (n + 1) (s.startHash.setCtx (Ctx.start base len))) := by
    rw [hostLoop, execAll_cons (execInit_eq s), execAll_cons (Completes.load hx).exec_eq, ← Ctx.start_nblk h.len_le,
      hturns.execAll_turns (.inl rfl), hn]
  refine ⟨_, _, hloop, (Completes.digest (h.loadCtx_eq _)).exec_eq, ?_⟩
  rw [State.digestMessage, hn]
  exact ⟨rfl, rfl, rfl, rfl, hphase, rfl, by rw [← hphase]; rfl⟩

end Sys2Proof.Machine
end

section
/-! Every command answers a next state in every state of the invariant (R179), and reads the message memory at addresses
that exist only (R51): with other bytes elsewhere, it answers the same but for those bytes. -/

namespace Sys2Proof.Machine

/-- A memory with the bytes of the message memory at every address that exists (R50). -/
def sameInside (s : State) (mem : Memory) : Prop := ∀ a, a < s.memBytes → mem.read a = s.mem.read a

section OtherMemory

variable {s : State} {mem : Memory}

/-! ### The commands that read no message byte -/

theorem exec_load_setMem {t : State} (h : exec .load s = .next t) :
    exec .load (s.setMem mem) = .next (t.setMem mem) := by
  rcases execLoad_cases s with ⟨x, hx, he⟩ | ⟨cause, info, hx, he⟩ <;> cases he.symm.trans h
  · exact (Completes.load (s := s.setMem mem) hx).exec_eq
  · rw [← State.raise_setMem]
    exact exec_load_of_error hx

theorem exec_sched_setMem {t : State} (h : exec .sched s = .next t) :
    exec .sched (s.setMem mem) = .next (t.setMem mem) := by
  rcases execSched_cases s with ⟨i, hi, he⟩ | ⟨hm, he⟩ <;> cases he.symm.trans h
  · rw [← State.raise_setMem]
    exact exec_sched_of_bot hi
  · exact (Completes.sched (s := s.setMem mem) hm).exec_eq

theorem State.compressM_setMem (s : State) (mem : Memory) : (s.setMem mem).compressM = s.compressM.setMem mem := by
  have hblock : (s.setMem mem).block = s.block := rfl
  have hhash : (s.setMem mem).hash = s.hash := rfl
  rw [State.compressM, State.compressM, hblock, hhash]
  split
  · exact s.raise_setMem ..
  · split
    · exact s.raise_setMem ..
    · rfl

theorem exec_compress_setMem {t : State} (h : exec .compress s = .next t) :
    exec .compress (s.setMem mem) = .next (t.setMem mem) := by
  rcases execCompress_cases s with ⟨hp, he⟩ | ⟨hp, he⟩ | ⟨hp, he⟩ <;> cases he.symm.trans h
  · rw [← State.raise_setMem]
    exact exec_compress_of_uninit hp
  · rw [← State.raise_setMem]
    exact exec_compress_of_final hp
  · rw [← State.compressM_setMem]
    exact exec_compress_of_open (by rcases hp with hp | hp <;> simp [hp]) (by rcases hp with hp | hp <;> simp [hp])

theorem State.compareCv_setMem (s : State) (mem : Memory) : (s.setMem mem).compareCv = s.compareCv.setMem mem := by
  have hcv : (s.setMem mem).compareValue = s.compareValue := rfl
  have hhash : (s.setMem mem).hash = s.hash := rfl
  rw [State.compareCv, State.compareCv, hcv, hhash]
  split
  · exact s.raise_setMem ..
  · split
    · exact s.raise_setMem ..
    · rfl

theorem exec_cmp_setMem {t : State} (h : exec .cmp s = .next t) : exec .cmp (s.setMem mem) = .next (t.setMem mem) := by
  rcases execCmp_cases s with ⟨hp, he⟩ | ⟨hp, he⟩ <;> cases he.symm.trans h
  · rw [← State.raise_setMem]
    exact exec_cmp_of_uninit hp
  · rw [← State.compareCv_setMem]
    exact exec_cmp_of_open hp

/-! ### FILL and DIGEST -/

/-- The next block of an agreeing context consists of bytes at addresses that exist (R27). -/
theorem Ctx.Agrees.filled_eq {x : Ctx} (h : x.Agrees s.memBytes) (hmem : sameInside s mem) :
    x.filled mem = x.filled s.mem := by
  have hin := h.inside
  have hle := consumedBytes_le_rem x.rem.toNat
  exact fill_congr_of_bytes fun k hk => hmem _ (by omega)

theorem Ctx.Agrees.materialise_setMem {x : Ctx} (h : x.Agrees s.memBytes) (hmem : sameInside s mem) :
    (s.setMem mem).materialise x = (s.materialise x).setMem mem := by
  have hfill : fill mem x.cur.toNat x.rem.toNat x.tbits = fill s.mem x.cur.toNat x.rem.toNat x.tbits :=
    h.filled_eq hmem
  simp only [State.materialise, State.setMem_mem, hfill]
  rfl

theorem exec_fill_setMem {t : State} (hs : s.Inv) (hmem : sameInside s mem) (h : exec .fill s = .next t) :
    exec .fill (s.setMem mem) = .next (t.setMem mem) := by
  rcases execFill_cases s with ⟨hx, he⟩ | ⟨x, hx, ⟨hb, he⟩ | ⟨-, -, he⟩ | ⟨hne, hin, he⟩⟩ <;> cases he.symm.trans h
  · rw [← State.raise_setMem]
    exact exec_fill_of_no_ctx hx
  · rw [← State.raise_setMem]
    exact exec_fill_of_overrun hx hb
  · rw [← (hs.ctx_agrees x hx).materialise_setMem hmem]
    exact (Completes.fill (s := s.setMem mem) hx hne hin).exec_eq

theorem TurnsLeft.digestBlock_setMem {n : Nat} {x : Ctx} {hs : Vector Word 8} (h : TurnsLeft n x hs s)
    (hmem : sameInside s mem) : (s.setMem mem).digestBlock = s.digestBlock.setMem mem := by
  have h' : TurnsLeft n x hs (s.setMem mem) := { h with }
  rw [h'.digestBlock_eq, h.digestBlock_eq, h.agrees.materialise_setMem hmem, State.setMem_mem, h.agrees.filled_eq hmem]
  rfl

theorem TurnsLeft.digestBlocks_setMem {n : Nat} {x : Ctx} {hs : Vector Word 8} (h : TurnsLeft n x hs s)
    (hmem : sameInside s mem) : State.digestBlocks n (s.setMem mem) = (State.digestBlocks n s).setMem mem := by
  induction n generalizing x hs s with
  | zero => rfl
  | succ n ih =>
    have hnext : sameInside s.digestBlock mem := by
      rw [h.digestBlock_eq]
      exact hmem
    rw [State.digestBlocks, State.digestBlocks, h.digestBlock_setMem hmem, ih h.digestBlock hnext]

theorem exec_digest_setMem {t : State} (hmem : sameInside s mem) (h : exec .digest s = .next t) :
    exec .digest (s.setMem mem) = .next (t.setMem mem) := by
  rcases execDigest_cases s with ⟨x, hx, he⟩ | ⟨cause, info, hx, he⟩ <;> cases he.symm.trans h
  · have hmsg : (s.setMem mem).digestMessage x = (s.digestMessage x).setMem mem :=
      congrArg (State.setPhase .final) ((TurnsLeft.start hx).digestBlocks_setMem hmem)
    rw [← hmsg]
    exact (Completes.digest (s := s.setMem mem) hx).exec_eq
  · rw [← State.raise_setMem]
    exact exec_digest_of_error hx

/-- What a command answers does not depend on the bytes at addresses that do not exist (R51). -/
theorem exec_setMem {i : Instr} {t : State} (hs : s.Inv) (hmem : sameInside s mem) (h : exec i s = .next t) :
    exec i (s.setMem mem) = .next (t.setMem mem) := by
  cases i with
  | init => cases h; rfl
  | load => exact exec_load_setMem h
  | fill => exact exec_fill_setMem hs hmem h
  | sched => exact exec_sched_setMem h
  | compress => exact exec_compress_setMem h
  | digest => exact exec_digest_setMem hmem h
  | cmp => exact exec_cmp_setMem h

end OtherMemory

/-- Settles O37: the invariant has no stray context, which alone could stop a command. -/
theorem everyCommandCompletes : Obligations.EveryCommandCompletes := by
  intro i s hs
  rcases exec_answers i s with ⟨t, ht⟩ | ⟨-, hctx⟩
  · exact ⟨t, ht, fun mem hmem => exec_setMem hs hmem ht⟩
  · exact absurd hctx hs.not_strayCtx

end Sys2Proof.Machine
end

section
/-! Faults: fault entry writes the record and nothing else (R210), a fault stands until reset (R212), and a core
without a host event waits (R222, R231). -/

namespace Sys2Proof.Machine

/-! ### Fault entry -/

/-- From `FAULT = 0`, fault entry writes one of the causes of R201 to R207, and the record alone (R210). -/
theorem raisesFrom.recordsFault_of_clear {s t : State} (h : raisesFrom s t) (hf : s.fault = false) :
    recordsFault s t.cause t.finfo t ∧ t.cause ≠ .noFault := by
  obtain ⟨cause, info, hne, rfl⟩ := h
  rw [State.raise_of_clear _ _ _ hf]
  exact ⟨rfl, hne⟩

theorem raisesFrom_of_exec {i : Instr} {s t : State} (hf : s.fault = false) (h : exec i s = .next t)
    (ht : t.fault = true) : raisesFrom s t := by
  rcases exec_next h with hc | hr
  · exact absurd ht (by simp [hc.fault_eq_false hf])
  · exact hr

theorem raisesFrom_of_hostWrite {off : BitVec 12} {v : Word} {s t : State} (hf : s.fault = false)
    (h : hostWrite off v s = .next t) (ht : t.fault = true) : raisesFrom s t := by
  rcases hostWrite_next h with rfl | hr | ⟨i, hc⟩ | ⟨r, hr⟩
  · exact absurd ht (by simp [hf])
  · exact hr
  · exact absurd ht (by simp [hc.fault_eq_false hf])
  · rw [Reg.store_frame hr] at ht
    exact absurd ht (by simp [hf])

/-- A read that records a fault returns no data (R64). -/
theorem raisesFrom_of_hostRead {off : BitVec 12} {s : State} (hf : s.fault = false)
    (ht : (hostRead off s).1.fault = true) : raisesFrom s (hostRead off s).1 ∧ (hostRead off s).2 = none := by
  rcases hostRead_cases off s with ⟨r, v, -, -, he⟩ | he | he <;> rw [he] at ht ⊢
  · exact absurd ht (by simp [hf])
  · exact ⟨⟨_, _, by decide, rfl⟩, rfl⟩
  · exact ⟨⟨_, _, by decide, rfl⟩, rfl⟩

/-- Settles O35: what ends with `FAULT = 1` went through fault entry. -/
theorem faultsArePrecise : Obligations.FaultsArePrecise := by
  refine ⟨fun i s t hf h ht => (raisesFrom_of_exec hf h ht).recordsFault_of_clear hf,
    fun off v s t hf h ht => (raisesFrom_of_hostWrite hf h ht).recordsFault_of_clear hf, fun off s hf ht => ?_,
    fun c info s => ⟨s.raise_of_faulted c info, fun hf => recordsFault_raise hf c info⟩⟩
  obtain ⟨hr, hnone⟩ := raisesFrom_of_hostRead hf ht
  obtain ⟨hrec, hcause⟩ := hr.recordsFault_of_clear hf
  exact ⟨hrec, hcause, hnone⟩

/-! ### While a fault stands -/

theorem hostWrite_of_faulted {s : State} (hf : s.fault = true) (off : BitVec 12) (v : Word) :
    hostWrite off v s = .next s := if_pos hf

/-- While a fault stands, an event other than reset reaches the message memory and the host's lists alone (R67, R212). -/
theorem step_frame_of_faulted {s t : State} (hf : s.fault = true) (hno : ∀ rest, s.pending ≠ .reset :: rest)
    (h : step s = .next t) : t = { s with mem := t.mem, pending := t.pending, results := t.results } := by
  rcases step_cases s with ⟨-, he⟩ | ⟨off, v, rest, -, he⟩ | ⟨off, rest, -, he⟩ | ⟨rest, hq, -⟩ | ⟨addr, b, rest, -, he⟩
  · cases he.symm.trans h; rfl
  · cases (he.trans (hostWrite_of_faulted (s := s.setPending rest) hf off v)).symm.trans h; rfl
  · rw [hostRead_fst_of_faulted (s := s.setPending rest) hf] at he
    cases he.symm.trans h; rfl
  · exact absurd hq (hno rest)
  · rcases hostPoke_cases addr b (s.setPending rest) with ⟨-, hn⟩ | ⟨-, hn⟩ <;> cases (he.trans hn).symm.trans h
    rfl

/-- Settles O36: neither the message memory nor the host's lists are registers of the core. -/
theorem faultStandsUntilReset : Obligations.FaultStandsUntilReset := by
  intro s t hf hno h
  rw [step_frame_of_faulted hf hno h]
  exact ⟨⟨rfl, rfl, rfl⟩, ⟨rfl, rfl, rfl, rfl, ⟨rfl, rfl, rfl, rfl⟩, rfl, rfl, rfl⟩, rfl⟩

/-! ### Waiting -/

/-- Settles O49: the step looks at the host's list first. -/
theorem idleInstanceWaits : Obligations.IdleInstanceWaits := fun s h => by simp only [step, h]

end Sys2Proof.Machine
end
